-- ==== Sys2Proof/Word.lean ====
section
/-! DEFINITION. The two word types of the MPU 6916 (`00_scope.md` R4): every register and every memory datum is an
8-bit or a 16-bit vector, with arithmetic that wraps (R7). -/

namespace Sys2Proof

/-- An 8-bit value: an accumulator, the condition code register, a memory byte (R4). -/
abbrev Byte := BitVec 8

/-- A 16-bit value: an index register, the stack pointer, the program counter, an address (R4). -/
abbrev Word := BitVec 16

end Sys2Proof
end

