-- ==== Sys2Proof/Syntax.lean ====
section
/-! DEFINITION. The abstract instructions of the MPU 6916: one constructor for each concrete mnemonic of `30_encoding.md` R86,
in the order of Table 1 (the rows of spec/opcode_table.json), with its operand forms (R72 to R80, R87) as arguments, and
one for the verdict "unrecognised" (R82). The rows of the table that share a mnemonic are the operand forms of its
constructor. -/

namespace Sys2Proof

/-- The 8-bit accumulators (R8, R10). -/
inductive Acc
  | A | B | H | L
  deriving DecidableEq, Repr

/-- The double accumulators (R8, R11). -/
inductive Dbl
  | D | E
  deriving DecidableEq, Repr

/-- The index registers (R8, R12). -/
inductive IReg
  | X | Y | Z
  deriving DecidableEq, Repr

/-- An operand in memory, or the address a control transfer names (R74 to R77). -/
inductive MemOp
  /-- Zero page: the low byte of the address (R74). -/
  | zp (addr8 : Byte)
  /-- Direct: the whole address (R75). -/
  | dir (addr16 : Word)
  /-- Indexed: an index register and an 8-bit offset, unsigned or signed (R76). -/
  | idx (ireg : IReg) (signed : Bool) (offset8 : Byte)
  /-- Relative: a 16-bit offset from PC (R77). -/
  | rel (offset16 : Word)
  deriving DecidableEq, Repr

/-- The source operand of an 8-bit instruction (R73 to R77). -/
inductive Src8
  | imm (value8 : Byte)
  | mem (m : MemOp)
  deriving DecidableEq, Repr

/-- The source operand of a 16-bit instruction (R73 to R77). -/
inductive Src16
  | imm (value16 : Word)
  | mem (m : MemOp)
  deriving DecidableEq, Repr

/-- The operand of a single-operand instruction, read and written in place: an accumulator or a memory byte (R80). -/
inductive Target8
  | acc (a : Acc)
  | mem (m : MemOp)
  deriving DecidableEq, Repr

/-- An abstract instruction: a mnemonic with its operand fields (R71, R86). `mask` is the 8-bit mask of R79, `off` the
signed 8-bit branch offset of R78. -/
inductive Instr
  -- R130
  | ldaa (o : Src8)
  | ldab (o : Src8)
  | ldah (o : Src8)
  | ldal (o : Src8)
  -- R131
  | staa (m : MemOp)
  | stab (m : MemOp)
  | stah (m : MemOp)
  | stal (m : MemOp)
  -- R132
  | tab
  -- R133
  | tba
  -- R134
  | thl
  -- R135
  | tlh
  -- R136
  | psha
  | pshb
  | pshh
  | pshl
  -- R137
  | pula
  | pulb
  | pulh
  | pull
  -- R138
  | adda (o : Src8)
  | addb (o : Src8)
  | addh (o : Src8)
  | addl (o : Src8)
  -- R139
  | adca (o : Src8)
  | adcb (o : Src8)
  | adch (o : Src8)
  | adcl (o : Src8)
  -- R140
  | suba (o : Src8)
  | subb (o : Src8)
  | subh (o : Src8)
  | subl (o : Src8)
  -- R141
  | sbca (o : Src8)
  | sbcb (o : Src8)
  | sbch (o : Src8)
  | sbcl (o : Src8)
  -- R142
  | cmpa (o : Src8)
  | cmpb (o : Src8)
  | cmph (o : Src8)
  | cmpl (o : Src8)
  -- R143
  | bita (o : Src8)
  | bitb (o : Src8)
  | bith (o : Src8)
  | bitl (o : Src8)
  -- R144
  | anda (o : Src8)
  | andb (o : Src8)
  | andh (o : Src8)
  | andl (o : Src8)
  -- R145
  | oraa (o : Src8)
  | orab (o : Src8)
  | orah (o : Src8)
  | oral (o : Src8)
  -- R146
  | eora (o : Src8)
  | eorb (o : Src8)
  | eorh (o : Src8)
  | eorl (o : Src8)
  -- R147
  | inc (m : MemOp)
  | inca
  | incb
  | inch
  | incl
  -- R148
  | dec (m : MemOp)
  | deca
  | decb
  | dech
  | decl
  -- R149
  | neg (m : MemOp)
  | nega
  | negb
  | negh
  | negl
  -- R150
  | com (m : MemOp)
  | coma
  | comb
  | comh
  | coml
  -- R151
  | clr (m : MemOp)
  | clra
  | clrb
  | clrh
  | clrl
  -- R152
  | bset (m : MemOp) (mask : Byte)
  -- R153
  | bclr (m : MemOp) (mask : Byte)
  -- R154
  | tst (m : MemOp)
  | tsta
  | tstb
  | tsth
  | tstl
  -- R155
  | lsr (m : MemOp)
  | lsra
  | lsrb
  | lsrh
  | lsrl
  -- R156
  | asl (m : MemOp)
  | asla
  | aslb
  | aslh
  | asll
  -- R157
  | asr (m : MemOp)
  | asra
  | asrb
  | asrh
  | asrl
  -- R158
  | ror (m : MemOp)
  | rora
  | rorb
  | rorh
  | rorl
  -- R159
  | rol (m : MemOp)
  | rola
  | rolb
  | rolh
  | roll
  -- R160
  | aba
  -- R161
  | alh
  -- R162
  | sba
  -- R163
  | slh
  -- R164
  | cba
  -- R165
  | clh
  -- R166
  | sxtb
  -- R167
  | sxtl
  -- R168
  | mul
  -- R169
  | daa
  -- R180
  | clc
  -- R181
  | sec
  -- R182
  | clv
  -- R183
  | sev
  -- R184
  | tap
  -- R185
  | tpa
  -- R190
  | ldd (o : Src16)
  | lde (o : Src16)
  -- R191
  | std (m : MemOp)
  | ste (m : MemOp)
  -- R192
  | xgde
  -- R193
  | addd (o : Src16)
  | adde (o : Src16)
  -- R194
  | subd (o : Src16)
  | sube (o : Src16)
  -- R195
  | cmpd (o : Src16)
  | cmpe (o : Src16)
  -- R196
  | aed
  -- R197
  | sed
  -- R198
  | ced
  -- R199
  | med
  -- R200
  | lsrd
  | lsre
  -- R201
  | asrd
  | asre
  -- R202
  | asld
  | asle
  -- R203
  | idiv
  -- R204
  | fdiv
  -- R210
  | ldx (o : Src16)
  | ldy (o : Src16)
  | ldz (o : Src16)
  -- R211
  | stx (m : MemOp)
  | sty (m : MemOp)
  | stz (m : MemOp)
  -- R212
  | pshx
  | pshy
  | pshz
  -- R213
  | pulx
  | puly
  | pulz
  -- R214
  | xgdx
  | xgdy
  | xgdz
  | xgex
  | xgey
  | xgez
  -- R215
  | cpx (o : Src16)
  | cpy (o : Src16)
  | cpz (o : Src16)
  -- R216
  | inx
  | iny
  | inz
  -- R217
  | dex
  | dey
  | dez
  -- R218
  | addx (o : Src16)
  | addy (o : Src16)
  | addz (o : Src16)
  -- R219
  | abx
  | aby
  | abz
  -- R225
  | lds (o : Src16)
  -- R226
  | sts (m : MemOp)
  -- R227
  | tsx
  | tsy
  | tsz
  -- R228
  | txs
  | tys
  | tzs
  -- R229
  | ins
  -- R230
  | des
  -- R240
  | nop
  -- R241
  | jmp (m : MemOp)
  -- R242
  | jsr (m : MemOp)
  -- R243
  | rts
  -- R244
  | bsr (off : Byte)
  -- R245
  | bra (off : Byte)
  -- R247
  | brset (m : MemOp) (mask : Byte) (off : Byte)
  -- R248
  | brclr (m : MemOp) (mask : Byte) (off : Byte)
  -- R249
  | bmi (off : Byte)
  -- R250
  | bpl (off : Byte)
  -- R251
  | beq (off : Byte)
  -- R252
  | bne (off : Byte)
  -- R253
  | bcs (off : Byte)
  -- R254
  | bcc (off : Byte)
  -- R255
  | bvs (off : Byte)
  -- R256
  | bvc (off : Byte)
  -- R257
  | bgt (off : Byte)
  -- R258
  | blt (off : Byte)
  -- R259
  | bge (off : Byte)
  -- R260
  | ble (off : Byte)
  -- R261
  | bhi (off : Byte)
  -- R262
  | blo (off : Byte)
  -- R263
  | bhs (off : Byte)
  -- R264
  | bls (off : Byte)
  -- R275
  | cli
  -- R276
  | sei
  -- R277
  | swi
  -- R278
  | wai
  -- R279
  | rti
  -- R280
  | stop
  -- R308
  | unrecognised
  deriving DecidableEq, Repr

/-! ## The templates of Table 1: a row of the table as a function of the register its mnemonic names (R8, R86) -/

/-- `LDA a oper` (R130). -/
def Instr.lda : Acc → Src8 → Instr
  | .A, o => .ldaa o
  | .B, o => .ldab o
  | .H, o => .ldah o
  | .L, o => .ldal o

/-- `STA a oper` (R131). -/
def Instr.sta : Acc → MemOp → Instr
  | .A, m => .staa m
  | .B, m => .stab m
  | .H, m => .stah m
  | .L, m => .stal m

/-- `PSH a` (R136). -/
def Instr.psh : Acc → Instr
  | .A => .psha
  | .B => .pshb
  | .H => .pshh
  | .L => .pshl

/-- `PUL a` (R137). -/
def Instr.pul : Acc → Instr
  | .A => .pula
  | .B => .pulb
  | .H => .pulh
  | .L => .pull

/-- `ADD a oper` (R138). -/
def Instr.addAcc : Acc → Src8 → Instr
  | .A, o => .adda o
  | .B, o => .addb o
  | .H, o => .addh o
  | .L, o => .addl o

/-- `ADC a oper` (R139). -/
def Instr.adcAcc : Acc → Src8 → Instr
  | .A, o => .adca o
  | .B, o => .adcb o
  | .H, o => .adch o
  | .L, o => .adcl o

/-- `SUB a oper` (R140). -/
def Instr.subAcc : Acc → Src8 → Instr
  | .A, o => .suba o
  | .B, o => .subb o
  | .H, o => .subh o
  | .L, o => .subl o

/-- `SBC a oper` (R141). -/
def Instr.sbcAcc : Acc → Src8 → Instr
  | .A, o => .sbca o
  | .B, o => .sbcb o
  | .H, o => .sbch o
  | .L, o => .sbcl o

/-- `CMP a oper` (R142). -/
def Instr.cmpAcc : Acc → Src8 → Instr
  | .A, o => .cmpa o
  | .B, o => .cmpb o
  | .H, o => .cmph o
  | .L, o => .cmpl o

/-- `BIT a oper` (R143). -/
def Instr.bitAcc : Acc → Src8 → Instr
  | .A, o => .bita o
  | .B, o => .bitb o
  | .H, o => .bith o
  | .L, o => .bitl o

/-- `AND a oper` (R144). -/
def Instr.andAcc : Acc → Src8 → Instr
  | .A, o => .anda o
  | .B, o => .andb o
  | .H, o => .andh o
  | .L, o => .andl o

/-- `ORA a oper` (R145). -/
def Instr.oraAcc : Acc → Src8 → Instr
  | .A, o => .oraa o
  | .B, o => .orab o
  | .H, o => .orah o
  | .L, o => .oral o

/-- `EOR a oper` (R146). -/
def Instr.eorAcc : Acc → Src8 → Instr
  | .A, o => .eora o
  | .B, o => .eorb o
  | .H, o => .eorh o
  | .L, o => .eorl o

/-- `INC oper`, accumulator or memory form (R147, R80). -/
def Instr.incOper : Target8 → Instr
  | .acc .A => .inca
  | .acc .B => .incb
  | .acc .H => .inch
  | .acc .L => .incl
  | .mem m => .inc m

/-- `DEC oper`, accumulator or memory form (R148, R80). -/
def Instr.decOper : Target8 → Instr
  | .acc .A => .deca
  | .acc .B => .decb
  | .acc .H => .dech
  | .acc .L => .decl
  | .mem m => .dec m

/-- `NEG oper`, accumulator or memory form (R149, R80). -/
def Instr.negOper : Target8 → Instr
  | .acc .A => .nega
  | .acc .B => .negb
  | .acc .H => .negh
  | .acc .L => .negl
  | .mem m => .neg m

/-- `COM oper`, accumulator or memory form (R150, R80). -/
def Instr.comOper : Target8 → Instr
  | .acc .A => .coma
  | .acc .B => .comb
  | .acc .H => .comh
  | .acc .L => .coml
  | .mem m => .com m

/-- `CLR oper`, accumulator or memory form (R151, R80). -/
def Instr.clrOper : Target8 → Instr
  | .acc .A => .clra
  | .acc .B => .clrb
  | .acc .H => .clrh
  | .acc .L => .clrl
  | .mem m => .clr m

/-- `TST oper`, accumulator or memory form (R154, R80). -/
def Instr.tstOper : Target8 → Instr
  | .acc .A => .tsta
  | .acc .B => .tstb
  | .acc .H => .tsth
  | .acc .L => .tstl
  | .mem m => .tst m

/-- `LSR oper`, accumulator or memory form (R155, R80). -/
def Instr.lsrOper : Target8 → Instr
  | .acc .A => .lsra
  | .acc .B => .lsrb
  | .acc .H => .lsrh
  | .acc .L => .lsrl
  | .mem m => .lsr m

/-- `ASL oper`, accumulator or memory form (R156, R80). -/
def Instr.aslOper : Target8 → Instr
  | .acc .A => .asla
  | .acc .B => .aslb
  | .acc .H => .aslh
  | .acc .L => .asll
  | .mem m => .asl m

/-- `ASR oper`, accumulator or memory form (R157, R80). -/
def Instr.asrOper : Target8 → Instr
  | .acc .A => .asra
  | .acc .B => .asrb
  | .acc .H => .asrh
  | .acc .L => .asrl
  | .mem m => .asr m

/-- `ROR oper`, accumulator or memory form (R158, R80). -/
def Instr.rorOper : Target8 → Instr
  | .acc .A => .rora
  | .acc .B => .rorb
  | .acc .H => .rorh
  | .acc .L => .rorl
  | .mem m => .ror m

/-- `ROL oper`, accumulator or memory form (R159, R80). -/
def Instr.rolOper : Target8 → Instr
  | .acc .A => .rola
  | .acc .B => .rolb
  | .acc .H => .rolh
  | .acc .L => .roll
  | .mem m => .rol m

/-- `LD d oper` (R190). -/
def Instr.ldDbl : Dbl → Src16 → Instr
  | .D, o => .ldd o
  | .E, o => .lde o

/-- `ST d oper` (R191). -/
def Instr.stDbl : Dbl → MemOp → Instr
  | .D, m => .std m
  | .E, m => .ste m

/-- `ADD d oper` (R193). -/
def Instr.addDbl : Dbl → Src16 → Instr
  | .D, o => .addd o
  | .E, o => .adde o

/-- `SUB d oper` (R194). -/
def Instr.subDbl : Dbl → Src16 → Instr
  | .D, o => .subd o
  | .E, o => .sube o

/-- `CMP d oper` (R195). -/
def Instr.cmpDbl : Dbl → Src16 → Instr
  | .D, o => .cmpd o
  | .E, o => .cmpe o

/-- `LSR d` (R200). -/
def Instr.lsrDbl : Dbl → Instr
  | .D => .lsrd
  | .E => .lsre

/-- `ASR d` (R201). -/
def Instr.asrDbl : Dbl → Instr
  | .D => .asrd
  | .E => .asre

/-- `ASL d` (R202). -/
def Instr.aslDbl : Dbl → Instr
  | .D => .asld
  | .E => .asle

/-- `LD x oper` (R210). -/
def Instr.ldIndex : IReg → Src16 → Instr
  | .X, o => .ldx o
  | .Y, o => .ldy o
  | .Z, o => .ldz o

/-- `ST x oper` (R211). -/
def Instr.stIndex : IReg → MemOp → Instr
  | .X, m => .stx m
  | .Y, m => .sty m
  | .Z, m => .stz m

/-- `PSH x` (R212). -/
def Instr.pshIndex : IReg → Instr
  | .X => .pshx
  | .Y => .pshy
  | .Z => .pshz

/-- `PUL x` (R213). -/
def Instr.pulIndex : IReg → Instr
  | .X => .pulx
  | .Y => .puly
  | .Z => .pulz

/-- `CP x oper` (R215). -/
def Instr.cpIndex : IReg → Src16 → Instr
  | .X, o => .cpx o
  | .Y, o => .cpy o
  | .Z, o => .cpz o

/-- `IN x` (R216). -/
def Instr.inIndex : IReg → Instr
  | .X => .inx
  | .Y => .iny
  | .Z => .inz

/-- `DE x` (R217). -/
def Instr.deIndex : IReg → Instr
  | .X => .dex
  | .Y => .dey
  | .Z => .dez

/-- `ADD x oper` (R218). -/
def Instr.addIndex : IReg → Src16 → Instr
  | .X, o => .addx o
  | .Y, o => .addy o
  | .Z, o => .addz o

/-- `AB x` (R219). -/
def Instr.abIndex : IReg → Instr
  | .X => .abx
  | .Y => .aby
  | .Z => .abz

/-- `XG d x` (R214). -/
def Instr.xgIndex : Dbl → IReg → Instr
  | .D, .X => .xgdx
  | .D, .Y => .xgdy
  | .D, .Z => .xgdz
  | .E, .X => .xgex
  | .E, .Y => .xgey
  | .E, .Z => .xgez

/-- `T S x` (R227). -/
def Instr.tsIndex : IReg → Instr
  | .X => .tsx
  | .Y => .tsy
  | .Z => .tsz

/-- `T x S` (R228). -/
def Instr.tIndexS : IReg → Instr
  | .X => .txs
  | .Y => .tys
  | .Z => .tzs

end Sys2Proof
end

