-- ==== Sys2Proof/Config.lean ====
section
/-! DEFINITION. The parameters of `00_scope.md` R5: what a missing document, the platform or the implementation fixes. Those
to which the spec gives a default are the fields of the configuration record `Params`, which the state carries, so that a
claim about every state is one about every configuration (entry 43). Those without one, and the free values, are constants
with no body, so that no proof can see a value (`92_eei_decisions.md` D1, D2, D11, D12, D17, D18). -/

namespace Sys2Proof.Config

/-- A row of a code table: an opcode and the instruction form it is the code of, with its operand values zero (R71). -/
abbrev CodeRow := List Byte × Instr

/-- The part of `OPC` that neither a source nor general knowledge gives (R96; D1; entry 2). The rows count only where they
make a proper code table beside the M68HC11's codes (`openTable`). -/
opaque opcRows : List CodeRow

/-- `UNREC_LEN` less one: how many bytes after the first an unrecognised code occupies, from the four bytes at PC
(R5, R308; D17; entry 5). -/
opaque unrecTail : Byte → Byte → Byte → Byte → Nat

/-- The four vector locations as the images of 0, 1, 2, 3 under one permutation of the addresses: four addresses that
are only known to be pairwise distinct (R49, R309; D2; entry 6). -/
opaque vectorPerm : Equiv.Perm Word

/-- `RESET_VECTOR_LOC` (R5, R309). -/
def resetVectorLoc : Word := vectorPerm 0

/-- `HWI_VECTOR_LOC` (R5, R309). -/
def hwiVectorLoc : Word := vectorPerm 1

/-- `SWI_VECTOR_LOC` (R5, R309). -/
def swiVectorLoc : Word := vectorPerm 2

/-- `EMU_VECTOR_LOC` (R5, R307, R309). -/
def emuVectorLoc : Word := vectorPerm 3

/-- The registers to which the reset sequence gives no value (R30). -/
structure InitRegs where
  a : Byte
  b : Byte
  h : Byte
  l : Byte
  x : Word
  y : Word
  z : Word
  sp : Word
  deriving DecidableEq, Repr, Inhabited

/-- `InitRegs`: what the `n`-th draw finds in those registers after a reset (R5, R30, R342; D18; entry 19). -/
opaque initRegs : Nat → InitRegs

/-- `DAA_V`: CCR[V] after a DAA that is the `n`-th draw, with A, C and H before it (R5, R169; D11; entry 11). -/
opaque daaV : Nat → Byte → Bool → Bool → Bool

/-- The result and the carry of a DAA that is the `n`-th draw, where A, C and H are what no addition of two BCD bytes
leaves (R169; U6; entry 10). -/
opaque daaOther : Nat → Byte → Bool → Bool → Byte × Bool

/-- `DAA_FN` of an implementation that does not adjust as the M68HC11 does (R5, R169; D11; entry 10). -/
opaque daaFnOther : Byte → Bool → Bool → Byte × Bool

/-- `MUL_C` of an implementation where it is not bit 7 of the product (R5, R168; D12; entry 12). -/
opaque mulCOther : Byte → Byte → Bool

/-- What the half-carry is, at the `n`-th draw, after an instruction of `H_WRITERS` that is no 8-bit addition (R19; D10, U7;
entry 9). -/
opaque halfOther : Nat → Bool

/-- `MED_C`: CCR[C] after a MED that is the `n`-th draw, with D and E before it (R5, R199; D12; entry 13). -/
opaque medC : Nat → Word → Word → Bool

/-- What the `n`-th draw reads at an address with no memory behind it, a device or nothing (R5, R48, R321; D7; entry 22). -/
opaque busRead : Nat → Word → Byte

/-- The same where an instruction is fetched (R5, R48, R321; D7; entry 22). -/
opaque busFetch : Nat → Word → Byte

/-! ## The configuration record -/

/-- What stands behind an address (R5, R49; D7): memory that is read and written, memory whose writes are ignored, or a device
or nothing, which reads as anything and keeps no write. -/
inductive Backing
  | ram
  | rom
  | bus
  deriving DecidableEq, Repr

/-- The addresses from `first` to `last` are backed by `kind`. -/
structure Region where
  first : Word
  last : Word
  kind : Backing
  deriving DecidableEq, Repr

/-- `REL_PC_BASE`: which address is "PC" in the relative modes (R5; D4): `Next_PC`, the address of the opcode, or that of the
offset field. -/
inductive RelBase
  | nextPc
  | opcode
  | offsetField
  deriving DecidableEq, Repr

/-- `OPC` (R5, R71; D1; entry 1): the M68HC11's codes for the compatible forms of R84 beside the open rows `opcRows`, or any
other code table. -/
inductive Opc
  | m68hc11
  | table (rows : List CodeRow)
  deriving DecidableEq, Repr

/-- An instruction that `H_WRITERS` can have (R5, R19; D10, U7; entry 9): each arithmetic and each logic instruction, by its
mnemonic, but for ADD x, AB x, INS and DES, of which the source says that they leave every bit of CCR (R218, R219, R229). Of
the single-operand ones, `none` is the form on a memory byte. -/
inductive HWriter
  | add (a : Acc)
  | adc (a : Acc)
  | sub (a : Acc)
  | sbc (a : Acc)
  | cmp (a : Acc)
  | bit (a : Acc)
  | and (a : Acc)
  | ora (a : Acc)
  | eor (a : Acc)
  | inc (a : Option Acc)
  | dec (a : Option Acc)
  | neg (a : Option Acc)
  | com (a : Option Acc)
  | clr (a : Option Acc)
  | tst (a : Option Acc)
  | lsr (a : Option Acc)
  | asl (a : Option Acc)
  | asr (a : Option Acc)
  | ror (a : Option Acc)
  | rol (a : Option Acc)
  | bset
  | bclr
  | aba
  | alh
  | sba
  | slh
  | cba
  | clh
  | sxtb
  | sxtl
  | mul
  | daa
  | addDbl (d : Dbl)
  | subDbl (d : Dbl)
  | cmpDbl (d : Dbl)
  | aed
  | sed
  | ced
  | med
  | lsrDbl (d : Dbl)
  | asrDbl (d : Dbl)
  | aslDbl (d : Dbl)
  | cpIndex (r : IReg)
  | inIndex (r : IReg)
  | deIndex (r : IReg)
  deriving DecidableEq, Repr

/-- A function that is the M68HC11's, or any other. -/
inductive Rule
  | m68hc11
  | other
  deriving DecidableEq, Repr

/-- `XGDE_FLAGS_FROM` (R5, R192; D13). -/
inductive XgdeFrom
  | newD
  | newE
  deriving DecidableEq, Repr

/-- The parameters with a default (R5; entry 43). -/
structure Params where
  /-- `OPC` (D1; entry 1). -/
  opc : Opc
  /-- `MemMap` (D7; entry 22). -/
  memMap : List Region
  /-- `REL_PC_BASE` (D4; entry 8). -/
  relPcBase : RelBase
  /-- `H_WRITERS` (D10; entry 9). -/
  hWriters : List HWriter
  /-- `DAA_FN` (D11; entry 10). -/
  daaFn : Rule
  /-- `MUL_C` (D12; entry 12). -/
  mulC : Rule
  /-- `XGDE_FLAGS_FROM` (D13; entry 14). -/
  xgdeFlagsFrom : XgdeFrom
  deriving DecidableEq, Repr

/-- The defaults of R5. -/
def defaults : Params where
  opc := .m68hc11
  memMap := []
  relPcBase := .nextPc
  hWriters :=
    [.add .A, .add .B, .add .H, .add .L, .adc .A, .adc .B, .adc .H, .adc .L, .aba, .alh]
  daaFn := .m68hc11
  mulC := .m68hc11
  xgdeFlagsFrom := .newD

end Sys2Proof.Config
end

