-- ==== Sys2Proof/Machine/Bits.lean ====
section
/-! DEFINITION. Bit fields, extension and byte order: how a 16-bit datum is made of two bytes
(`00_scope.md` R6, R7; `20_memory.md` R42). -/

namespace Sys2Proof.Machine

/-- `hi ++ lo`: the 16-bit value whose bits 15..8 are `hi` and bits 7..0 are `lo` (R6). -/
def join (hi lo : Byte) : Word := hi ++ lo

/-- `v[15:8]` (R7). -/
def hiByte (v : Word) : Byte := v.extractLsb' 8 8

/-- `v[7:0]` (R7). -/
def loByte (v : Word) : Byte := v.extractLsb' 0 8

/-- `sext_16(v)`: bits 15..8 are copies of `v[7]` (R7). -/
def sext16 (v : Byte) : Word := v.signExtend 16

/-- `zext_16(v)`: bits 15..8 are 0 (R7). -/
def zext16 (v : Byte) : Word := v.setWidth 16

end Sys2Proof.Machine
end

