-- ==== Sys2Proof/WellFormed.lean ====
section
/-! DEFINITION. Which abstract instructions exist (`30_encoding.md` R87): the types of `Syntax` admit every operand form of
Table 1 and, beyond them, only zero-page operands where Table 1 has none, and the verdict "unrecognised", which is not
an instruction (R82). A form refused here has no object code. -/

namespace Sys2Proof

/-- The operand is not in zero-page form. -/
def MemOp.notZp : MemOp → Bool
  | .zp _ => false
  | .dir _ | .idx _ _ _ | .rel _ => true

/-- A 16-bit source operand that is not in zero-page form. -/
def Src16.notZp : Src16 → Bool
  | .imm _ => true
  | .mem m => m.notZp

/-- The form is one of Table 1 (R87): no zero-page form of the single-operand instructions (C4), of JMP, and of
ADD x (D28). -/
def Instr.wellFormed : Instr → Bool
  -- d x r: no zero-page form
  | .inc m | .dec m | .neg m | .com m | .clr m | .tst m | .lsr m | .asl m | .asr m | .ror m | .rol m | .jmp m => m.notZp
  -- i d x r: no zero-page form
  | .addx o | .addy o | .addz o => o.notZp
  -- i z d x r
  | .ldaa _ | .ldab _ | .ldah _ | .ldal _ | .adda _ | .addb _ | .addh _ | .addl _ | .adca _ | .adcb _ | .adch _
  | .adcl _ | .suba _ | .subb _ | .subh _ | .subl _ | .sbca _ | .sbcb _ | .sbch _ | .sbcl _ | .cmpa _ | .cmpb _
  | .cmph _ | .cmpl _ | .bita _ | .bitb _ | .bith _ | .bitl _ | .anda _ | .andb _ | .andh _ | .andl _ | .oraa _
  | .orab _ | .orah _ | .oral _ | .eora _ | .eorb _ | .eorh _ | .eorl _
  | .ldd _ | .lde _ | .addd _ | .adde _ | .subd _ | .sube _ | .cmpd _ | .cmpe _ | .ldx _ | .ldy _ | .ldz _ | .cpx _
  | .cpy _ | .cpz _ | .lds _ => true
  -- z d x r
  | .staa _ | .stab _ | .stah _ | .stal _ | .bset _ _ | .bclr _ _ | .std _ | .ste _ | .stx _ | .sty _ | .stz _
  | .sts _ | .jsr _ | .brset _ _ _ | .brclr _ _ _ => true
  -- short
  | .bsr _ | .bra _ | .bmi _ | .bpl _ | .beq _ | .bne _ | .bcs _ | .bcc _ | .bvs _ | .bvc _ | .bgt _ | .blt _
  | .bge _ | .ble _ | .bhi _ | .blo _ | .bhs _ | .bls _ => true
  -- no operand
  | .tab | .tba | .thl | .tlh | .psha | .pshb | .pshh | .pshl | .pula | .pulb | .pulh | .pull | .inca | .incb
  | .inch | .incl | .deca | .decb | .dech | .decl | .nega | .negb | .negh | .negl | .coma | .comb | .comh | .coml
  | .clra | .clrb | .clrh | .clrl | .tsta | .tstb | .tsth | .tstl | .lsra | .lsrb | .lsrh | .lsrl | .asla | .aslb
  | .aslh | .asll | .asra | .asrb | .asrh | .asrl | .rora | .rorb | .rorh | .rorl | .rola | .rolb | .rolh | .roll
  | .aba | .alh | .sba | .slh | .cba | .clh | .sxtb | .sxtl | .mul | .daa | .clc | .sec | .clv | .sev | .tap | .tpa
  | .xgde | .aed | .sed | .ced | .med | .lsrd | .lsre | .asrd | .asre | .asld | .asle | .idiv | .fdiv | .pshx
  | .pshy | .pshz | .pulx | .puly | .pulz | .xgdx | .xgdy | .xgdz | .xgex | .xgey | .xgez | .inx | .iny | .inz
  | .dex | .dey | .dez | .abx | .aby | .abz | .tsx | .tsy | .tsz | .txs | .tys | .tzs | .ins | .des | .nop | .rts
  | .cli | .sei | .swi | .wai | .rti | .stop => true
  -- the verdict of the decoder, not an instruction (R82)
  | .unrecognised => false

end Sys2Proof
end

