-- ==== Sys2Proof/Decode.lean ====
section
/-! DEFINITION. The byte level (`30_encoding.md`): the decode function `OPC` with the operand bytes of R72, and after it the
encoder. The decoder is total: a byte sequence that is no instruction gives the verdict `unrecognised` (R82). Which codes
there are is the parameter `OPC` (entry 1). Its default has the M68HC11's codes for the M6811-compatible forms (R84 to R95),
PRESUMED: the decoder holds them as the rows of spec/opcode_table.json, the encoder as the tables of R91 to R95. -/

namespace Sys2Proof

open Sys2Proof.Machine (join hiByte loByte)

/-! ## Operand bytes -/

/-- How many bytes an operand adds after the opcode (R72). -/
def MemOp.len : MemOp → Nat
  | .zp _ => 1
  | .dir _ => 2
  | .idx _ _ _ => 1
  | .rel _ => 2

/-- The operand form with its value read from the bytes after the opcode, high byte first (R72, R74 to R77). -/
def MemOp.fill : MemOp → (Nat → Byte) → MemOp
  | .zp _, rd => .zp (rd 0)
  | .dir _, rd => .dir (join (rd 0) (rd 1))
  | .idx r signed _, rd => .idx r signed (rd 0)
  | .rel _, rd => .rel (join (rd 0) (rd 1))

/-- How many bytes an 8-bit source operand adds (R72). -/
def Src8.len : Src8 → Nat
  | .imm _ => 1
  | .mem m => m.len

/-- The 8-bit source operand read from the bytes after the opcode (R72, R73). -/
def Src8.fill : Src8 → (Nat → Byte) → Src8
  | .imm _, rd => .imm (rd 0)
  | .mem m, rd => .mem (m.fill rd)

/-- How many bytes a 16-bit source operand adds (R72). -/
def Src16.len : Src16 → Nat
  | .imm _ => 2
  | .mem m => m.len

/-- The 16-bit source operand read from the bytes after the opcode (R72, R73). -/
def Src16.fill : Src16 → (Nat → Byte) → Src16
  | .imm _, rd => .imm (join (rd 0) (rd 1))
  | .mem m, rd => .mem (m.fill rd)

/-- How many operand bytes follow the opcode of an instruction form (R72). -/
def Instr.operandLen : Instr → Nat
  | .ldaa o | .ldab o | .ldah o | .ldal o | .adda o | .addb o | .addh o | .addl o | .adca o | .adcb o | .adch o
  | .adcl o | .suba o | .subb o | .subh o | .subl o | .sbca o | .sbcb o | .sbch o | .sbcl o | .cmpa o | .cmpb o
  | .cmph o | .cmpl o | .bita o | .bitb o | .bith o | .bitl o | .anda o | .andb o | .andh o | .andl o | .oraa o
  | .orab o | .orah o | .oral o | .eora o | .eorb o | .eorh o | .eorl o => o.len
  | .ldd o | .lde o | .addd o | .adde o | .subd o | .sube o | .cmpd o | .cmpe o | .ldx o | .ldy o | .ldz o | .cpx o
  | .cpy o | .cpz o | .addx o | .addy o | .addz o | .lds o => o.len
  | .staa m | .stab m | .stah m | .stal m | .inc m | .dec m | .neg m | .com m | .clr m | .tst m | .lsr m | .asl m
  | .asr m | .ror m | .rol m | .std m | .ste m | .stx m | .sty m | .stz m | .sts m | .jmp m | .jsr m => m.len
  | .bset m _ | .bclr m _ => m.len + 1
  | .brset m _ _ | .brclr m _ _ => m.len + 2
  | .bsr _ | .bra _ | .bmi _ | .bpl _ | .beq _ | .bne _ | .bcs _ | .bcc _ | .bvs _ | .bvc _ | .bgt _ | .blt _
  | .bge _ | .ble _ | .bhi _ | .blo _ | .bhs _ | .bls _ => 1
  | .tab | .tba | .thl | .tlh | .psha | .pshb | .pshh | .pshl | .pula | .pulb | .pulh | .pull | .inca | .incb
  | .inch | .incl | .deca | .decb | .dech | .decl | .nega | .negb | .negh | .negl | .coma | .comb | .comh | .coml
  | .clra | .clrb | .clrh | .clrl | .tsta | .tstb | .tsth | .tstl | .lsra | .lsrb | .lsrh | .lsrl | .asla | .aslb
  | .aslh | .asll | .asra | .asrb | .asrh | .asrl | .rora | .rorb | .rorh | .rorl | .rola | .rolb | .rolh | .roll
  | .aba | .alh | .sba | .slh | .cba | .clh | .sxtb | .sxtl | .mul | .daa | .clc | .sec | .clv | .sev | .tap | .tpa
  | .xgde | .aed | .sed | .ced | .med | .lsrd | .lsre | .asrd | .asre | .asld | .asle | .idiv | .fdiv | .pshx
  | .pshy | .pshz | .pulx | .puly | .pulz | .xgdx | .xgdy | .xgdz | .xgex | .xgey | .xgez | .inx | .iny | .inz
  | .dex | .dey | .dez | .abx | .aby | .abz | .tsx | .tsy | .tsz | .txs | .tys | .tzs | .ins | .des | .nop | .rts
  | .cli | .sei | .swi | .wai | .rti | .stop | .unrecognised => 0

/-- The instruction form with its operand fields read from the bytes after the opcode: the address or offset, then the
mask, then the branch offset (R72). -/
def Instr.fill (i : Instr) (rd : Nat → Byte) : Instr :=
  match i with
  | .ldaa o => .ldaa (o.fill rd)
  | .ldab o => .ldab (o.fill rd)
  | .ldah o => .ldah (o.fill rd)
  | .ldal o => .ldal (o.fill rd)
  | .staa m => .staa (m.fill rd)
  | .stab m => .stab (m.fill rd)
  | .stah m => .stah (m.fill rd)
  | .stal m => .stal (m.fill rd)
  | .tab => .tab
  | .tba => .tba
  | .thl => .thl
  | .tlh => .tlh
  | .psha => .psha
  | .pshb => .pshb
  | .pshh => .pshh
  | .pshl => .pshl
  | .pula => .pula
  | .pulb => .pulb
  | .pulh => .pulh
  | .pull => .pull
  | .adda o => .adda (o.fill rd)
  | .addb o => .addb (o.fill rd)
  | .addh o => .addh (o.fill rd)
  | .addl o => .addl (o.fill rd)
  | .adca o => .adca (o.fill rd)
  | .adcb o => .adcb (o.fill rd)
  | .adch o => .adch (o.fill rd)
  | .adcl o => .adcl (o.fill rd)
  | .suba o => .suba (o.fill rd)
  | .subb o => .subb (o.fill rd)
  | .subh o => .subh (o.fill rd)
  | .subl o => .subl (o.fill rd)
  | .sbca o => .sbca (o.fill rd)
  | .sbcb o => .sbcb (o.fill rd)
  | .sbch o => .sbch (o.fill rd)
  | .sbcl o => .sbcl (o.fill rd)
  | .cmpa o => .cmpa (o.fill rd)
  | .cmpb o => .cmpb (o.fill rd)
  | .cmph o => .cmph (o.fill rd)
  | .cmpl o => .cmpl (o.fill rd)
  | .bita o => .bita (o.fill rd)
  | .bitb o => .bitb (o.fill rd)
  | .bith o => .bith (o.fill rd)
  | .bitl o => .bitl (o.fill rd)
  | .anda o => .anda (o.fill rd)
  | .andb o => .andb (o.fill rd)
  | .andh o => .andh (o.fill rd)
  | .andl o => .andl (o.fill rd)
  | .oraa o => .oraa (o.fill rd)
  | .orab o => .orab (o.fill rd)
  | .orah o => .orah (o.fill rd)
  | .oral o => .oral (o.fill rd)
  | .eora o => .eora (o.fill rd)
  | .eorb o => .eorb (o.fill rd)
  | .eorh o => .eorh (o.fill rd)
  | .eorl o => .eorl (o.fill rd)
  | .inc m => .inc (m.fill rd)
  | .inca => .inca
  | .incb => .incb
  | .inch => .inch
  | .incl => .incl
  | .dec m => .dec (m.fill rd)
  | .deca => .deca
  | .decb => .decb
  | .dech => .dech
  | .decl => .decl
  | .neg m => .neg (m.fill rd)
  | .nega => .nega
  | .negb => .negb
  | .negh => .negh
  | .negl => .negl
  | .com m => .com (m.fill rd)
  | .coma => .coma
  | .comb => .comb
  | .comh => .comh
  | .coml => .coml
  | .clr m => .clr (m.fill rd)
  | .clra => .clra
  | .clrb => .clrb
  | .clrh => .clrh
  | .clrl => .clrl
  | .bset m _ => .bset (m.fill rd) (rd m.len)
  | .bclr m _ => .bclr (m.fill rd) (rd m.len)
  | .tst m => .tst (m.fill rd)
  | .tsta => .tsta
  | .tstb => .tstb
  | .tsth => .tsth
  | .tstl => .tstl
  | .lsr m => .lsr (m.fill rd)
  | .lsra => .lsra
  | .lsrb => .lsrb
  | .lsrh => .lsrh
  | .lsrl => .lsrl
  | .asl m => .asl (m.fill rd)
  | .asla => .asla
  | .aslb => .aslb
  | .aslh => .aslh
  | .asll => .asll
  | .asr m => .asr (m.fill rd)
  | .asra => .asra
  | .asrb => .asrb
  | .asrh => .asrh
  | .asrl => .asrl
  | .ror m => .ror (m.fill rd)
  | .rora => .rora
  | .rorb => .rorb
  | .rorh => .rorh
  | .rorl => .rorl
  | .rol m => .rol (m.fill rd)
  | .rola => .rola
  | .rolb => .rolb
  | .rolh => .rolh
  | .roll => .roll
  | .aba => .aba
  | .alh => .alh
  | .sba => .sba
  | .slh => .slh
  | .cba => .cba
  | .clh => .clh
  | .sxtb => .sxtb
  | .sxtl => .sxtl
  | .mul => .mul
  | .daa => .daa
  | .clc => .clc
  | .sec => .sec
  | .clv => .clv
  | .sev => .sev
  | .tap => .tap
  | .tpa => .tpa
  | .ldd o => .ldd (o.fill rd)
  | .lde o => .lde (o.fill rd)
  | .std m => .std (m.fill rd)
  | .ste m => .ste (m.fill rd)
  | .xgde => .xgde
  | .addd o => .addd (o.fill rd)
  | .adde o => .adde (o.fill rd)
  | .subd o => .subd (o.fill rd)
  | .sube o => .sube (o.fill rd)
  | .cmpd o => .cmpd (o.fill rd)
  | .cmpe o => .cmpe (o.fill rd)
  | .aed => .aed
  | .sed => .sed
  | .ced => .ced
  | .med => .med
  | .lsrd => .lsrd
  | .lsre => .lsre
  | .asrd => .asrd
  | .asre => .asre
  | .asld => .asld
  | .asle => .asle
  | .idiv => .idiv
  | .fdiv => .fdiv
  | .ldx o => .ldx (o.fill rd)
  | .ldy o => .ldy (o.fill rd)
  | .ldz o => .ldz (o.fill rd)
  | .stx m => .stx (m.fill rd)
  | .sty m => .sty (m.fill rd)
  | .stz m => .stz (m.fill rd)
  | .pshx => .pshx
  | .pshy => .pshy
  | .pshz => .pshz
  | .pulx => .pulx
  | .puly => .puly
  | .pulz => .pulz
  | .xgdx => .xgdx
  | .xgdy => .xgdy
  | .xgdz => .xgdz
  | .xgex => .xgex
  | .xgey => .xgey
  | .xgez => .xgez
  | .cpx o => .cpx (o.fill rd)
  | .cpy o => .cpy (o.fill rd)
  | .cpz o => .cpz (o.fill rd)
  | .inx => .inx
  | .iny => .iny
  | .inz => .inz
  | .dex => .dex
  | .dey => .dey
  | .dez => .dez
  | .addx o => .addx (o.fill rd)
  | .addy o => .addy (o.fill rd)
  | .addz o => .addz (o.fill rd)
  | .abx => .abx
  | .aby => .aby
  | .abz => .abz
  | .lds o => .lds (o.fill rd)
  | .sts m => .sts (m.fill rd)
  | .tsx => .tsx
  | .tsy => .tsy
  | .tsz => .tsz
  | .txs => .txs
  | .tys => .tys
  | .tzs => .tzs
  | .ins => .ins
  | .des => .des
  | .nop => .nop
  | .jmp m => .jmp (m.fill rd)
  | .jsr m => .jsr (m.fill rd)
  | .rts => .rts
  | .bsr _ => .bsr (rd 0)
  | .bra _ => .bra (rd 0)
  | .brset m _ _ => .brset (m.fill rd) (rd m.len) (rd (m.len + 1))
  | .brclr m _ _ => .brclr (m.fill rd) (rd m.len) (rd (m.len + 1))
  | .bmi _ => .bmi (rd 0)
  | .bpl _ => .bpl (rd 0)
  | .beq _ => .beq (rd 0)
  | .bne _ => .bne (rd 0)
  | .bcs _ => .bcs (rd 0)
  | .bcc _ => .bcc (rd 0)
  | .bvs _ => .bvs (rd 0)
  | .bvc _ => .bvc (rd 0)
  | .bgt _ => .bgt (rd 0)
  | .blt _ => .blt (rd 0)
  | .bge _ => .bge (rd 0)
  | .ble _ => .ble (rd 0)
  | .bhi _ => .bhi (rd 0)
  | .blo _ => .blo (rd 0)
  | .bhs _ => .bhs (rd 0)
  | .bls _ => .bls (rd 0)
  | .cli => .cli
  | .sei => .sei
  | .swi => .swi
  | .wai => .wai
  | .rti => .rti
  | .stop => .stop
  | .unrecognised => .unrecognised

/-! ## The known codes: the rows of spec/opcode_table.json that have a `match`, operand values zero -/

/-- Codes 0x00 to 0x0F. -/
def codes0 : List (Option Instr) :=
  [none, some .nop, some .idiv, some .fdiv, some .lsrd, some .asld, some .tap, some .tpa, some .inx, some .dex,
   some .clv, some .sev, some .clc, some .sec, some .cli, some .sei]

/-- Codes 0x10 to 0x1F. -/
def codes1 : List (Option Instr) :=
  [some .sba, some .cba, some (.brset (.zp 0) 0 0), some (.brclr (.zp 0) 0 0), some (.bset (.zp 0) 0),
   some (.bclr (.zp 0) 0), some .tab, some .tba, none, some .daa, none, some .aba, some (.bset (.idx .X false 0) 0),
   some (.bclr (.idx .X false 0) 0), some (.brset (.idx .X false 0) 0 0), some (.brclr (.idx .X false 0) 0 0)]

/-- Codes 0x20 to 0x2F. -/
def codes2 : List (Option Instr) :=
  [some (.bra 0), none, some (.bhi 0), some (.bls 0), some (.bcc 0), some (.bcs 0), some (.bne 0), some (.beq 0),
   some (.bvc 0), some (.bvs 0), some (.bpl 0), some (.bmi 0), some (.bge 0), some (.blt 0), some (.bgt 0),
   some (.ble 0)]

/-- Codes 0x30 to 0x3F. -/
def codes3 : List (Option Instr) :=
  [some .tsx, some .ins, some .pula, some .pulb, some .des, some .txs, some .psha, some .pshb, some .pulx, some .rts,
   some .abx, some .rti, some .pshx, some .mul, some .wai, some .swi]

/-- Codes 0x40 to 0x4F. -/
def codes4 : List (Option Instr) :=
  [some .nega, none, none, some .coma, some .lsra, none, some .rora, some .asra, some .asla, some .rola, some .deca,
   none, some .inca, some .tsta, none, some .clra]

/-- Codes 0x50 to 0x5F. -/
def codes5 : List (Option Instr) :=
  [some .negb, none, none, some .comb, some .lsrb, none, some .rorb, some .asrb, some .aslb, some .rolb, some .decb,
   none, some .incb, some .tstb, none, some .clrb]

/-- Codes 0x60 to 0x6F. -/
def codes6 : List (Option Instr) :=
  [some (.neg (.idx .X false 0)), none, none, some (.com (.idx .X false 0)), some (.lsr (.idx .X false 0)), none,
   some (.ror (.idx .X false 0)), some (.asr (.idx .X false 0)), some (.asl (.idx .X false 0)),
   some (.rol (.idx .X false 0)), some (.dec (.idx .X false 0)), none, some (.inc (.idx .X false 0)),
   some (.tst (.idx .X false 0)), some (.jmp (.idx .X false 0)), some (.clr (.idx .X false 0))]

/-- Codes 0x70 to 0x7F. -/
def codes7 : List (Option Instr) :=
  [some (.neg (.dir 0)), none, none, some (.com (.dir 0)), some (.lsr (.dir 0)), none, some (.ror (.dir 0)),
   some (.asr (.dir 0)), some (.asl (.dir 0)), some (.rol (.dir 0)), some (.dec (.dir 0)), none,
   some (.inc (.dir 0)), some (.tst (.dir 0)), some (.jmp (.dir 0)), some (.clr (.dir 0))]

/-- Codes 0x80 to 0x8F. -/
def codes8 : List (Option Instr) :=
  [some (.suba (.imm 0)), some (.cmpa (.imm 0)), some (.sbca (.imm 0)), some (.subd (.imm 0)), some (.anda (.imm 0)),
   some (.bita (.imm 0)), some (.ldaa (.imm 0)), none, some (.eora (.imm 0)), some (.adca (.imm 0)),
   some (.oraa (.imm 0)), some (.adda (.imm 0)), some (.cpx (.imm 0)), some (.bsr 0), some (.lds (.imm 0)),
   some .xgdx]

/-- Codes 0x90 to 0x9F. -/
def codes9 : List (Option Instr) :=
  [some (.suba (.mem (.zp 0))), some (.cmpa (.mem (.zp 0))), some (.sbca (.mem (.zp 0))),
   some (.subd (.mem (.zp 0))), some (.anda (.mem (.zp 0))), some (.bita (.mem (.zp 0))),
   some (.ldaa (.mem (.zp 0))), some (.staa (.zp 0)), some (.eora (.mem (.zp 0))), some (.adca (.mem (.zp 0))),
   some (.oraa (.mem (.zp 0))), some (.adda (.mem (.zp 0))), some (.cpx (.mem (.zp 0))), some (.jsr (.zp 0)),
   some (.lds (.mem (.zp 0))), some (.sts (.zp 0))]

/-- Codes 0xA0 to 0xAF. -/
def codesA : List (Option Instr) :=
  [some (.suba (.mem (.idx .X false 0))), some (.cmpa (.mem (.idx .X false 0))),
   some (.sbca (.mem (.idx .X false 0))), some (.subd (.mem (.idx .X false 0))),
   some (.anda (.mem (.idx .X false 0))), some (.bita (.mem (.idx .X false 0))),
   some (.ldaa (.mem (.idx .X false 0))), some (.staa (.idx .X false 0)), some (.eora (.mem (.idx .X false 0))),
   some (.adca (.mem (.idx .X false 0))), some (.oraa (.mem (.idx .X false 0))),
   some (.adda (.mem (.idx .X false 0))), some (.cpx (.mem (.idx .X false 0))), some (.jsr (.idx .X false 0)),
   some (.lds (.mem (.idx .X false 0))), some (.sts (.idx .X false 0))]

/-- Codes 0xB0 to 0xBF. -/
def codesB : List (Option Instr) :=
  [some (.suba (.mem (.dir 0))), some (.cmpa (.mem (.dir 0))), some (.sbca (.mem (.dir 0))),
   some (.subd (.mem (.dir 0))), some (.anda (.mem (.dir 0))), some (.bita (.mem (.dir 0))),
   some (.ldaa (.mem (.dir 0))), some (.staa (.dir 0)), some (.eora (.mem (.dir 0))), some (.adca (.mem (.dir 0))),
   some (.oraa (.mem (.dir 0))), some (.adda (.mem (.dir 0))), some (.cpx (.mem (.dir 0))), some (.jsr (.dir 0)),
   some (.lds (.mem (.dir 0))), some (.sts (.dir 0))]

/-- Codes 0xC0 to 0xCF. -/
def codesC : List (Option Instr) :=
  [some (.subb (.imm 0)), some (.cmpb (.imm 0)), some (.sbcb (.imm 0)), some (.addd (.imm 0)), some (.andb (.imm 0)),
   some (.bitb (.imm 0)), some (.ldab (.imm 0)), none, some (.eorb (.imm 0)), some (.adcb (.imm 0)),
   some (.orab (.imm 0)), some (.addb (.imm 0)), some (.ldd (.imm 0)), none, some (.ldx (.imm 0)), some .stop]

/-- Codes 0xD0 to 0xDF. -/
def codesD : List (Option Instr) :=
  [some (.subb (.mem (.zp 0))), some (.cmpb (.mem (.zp 0))), some (.sbcb (.mem (.zp 0))),
   some (.addd (.mem (.zp 0))), some (.andb (.mem (.zp 0))), some (.bitb (.mem (.zp 0))),
   some (.ldab (.mem (.zp 0))), some (.stab (.zp 0)), some (.eorb (.mem (.zp 0))), some (.adcb (.mem (.zp 0))),
   some (.orab (.mem (.zp 0))), some (.addb (.mem (.zp 0))), some (.ldd (.mem (.zp 0))), some (.std (.zp 0)),
   some (.ldx (.mem (.zp 0))), some (.stx (.zp 0))]

/-- Codes 0xE0 to 0xEF. -/
def codesE : List (Option Instr) :=
  [some (.subb (.mem (.idx .X false 0))), some (.cmpb (.mem (.idx .X false 0))),
   some (.sbcb (.mem (.idx .X false 0))), some (.addd (.mem (.idx .X false 0))),
   some (.andb (.mem (.idx .X false 0))), some (.bitb (.mem (.idx .X false 0))),
   some (.ldab (.mem (.idx .X false 0))), some (.stab (.idx .X false 0)), some (.eorb (.mem (.idx .X false 0))),
   some (.adcb (.mem (.idx .X false 0))), some (.orab (.mem (.idx .X false 0))),
   some (.addb (.mem (.idx .X false 0))), some (.ldd (.mem (.idx .X false 0))), some (.std (.idx .X false 0)),
   some (.ldx (.mem (.idx .X false 0))), some (.stx (.idx .X false 0))]

/-- Codes 0xF0 to 0xFF. -/
def codesF : List (Option Instr) :=
  [some (.subb (.mem (.dir 0))), some (.cmpb (.mem (.dir 0))), some (.sbcb (.mem (.dir 0))),
   some (.addd (.mem (.dir 0))), some (.andb (.mem (.dir 0))), some (.bitb (.mem (.dir 0))),
   some (.ldab (.mem (.dir 0))), some (.stab (.dir 0)), some (.eorb (.mem (.dir 0))), some (.adcb (.mem (.dir 0))),
   some (.orab (.mem (.dir 0))), some (.addb (.mem (.dir 0))), some (.ldd (.mem (.dir 0))), some (.std (.dir 0)),
   some (.ldx (.mem (.dir 0))), some (.stx (.dir 0))]

/-- The one-byte codes, by high and low digit. -/
def codePage : List (List (Option Instr)) :=
  [codes0, codes1, codes2, codes3, codes4, codes5, codes6, codes7,
   codes8, codes9, codesA, codesB, codesC, codesD, codesE, codesF]

/-- The form a one-byte code selects. -/
def oneByteCode (b : Byte) : Option Instr := (codePage.getD (b.toNat / 16) []).getD (b.toNat % 16) none

/-- The codes after the prebyte 0x18 (R85). -/
def page18 : List (Byte × Instr) :=
  [(0x08, .iny), (0x09, .dey), (0x1C, .bset (.idx .Y false 0) 0), (0x1D, .bclr (.idx .Y false 0) 0),
   (0x1E, .brset (.idx .Y false 0) 0 0), (0x1F, .brclr (.idx .Y false 0) 0 0), (0x30, .tsy), (0x35, .tys),
   (0x38, .puly), (0x3A, .aby), (0x3C, .pshy), (0x60, .neg (.idx .Y false 0)), (0x63, .com (.idx .Y false 0)),
   (0x64, .lsr (.idx .Y false 0)), (0x66, .ror (.idx .Y false 0)), (0x67, .asr (.idx .Y false 0)),
   (0x68, .asl (.idx .Y false 0)), (0x69, .rol (.idx .Y false 0)), (0x6A, .dec (.idx .Y false 0)),
   (0x6C, .inc (.idx .Y false 0)), (0x6D, .tst (.idx .Y false 0)), (0x6E, .jmp (.idx .Y false 0)),
   (0x6F, .clr (.idx .Y false 0)), (0x8C, .cpy (.imm 0)), (0x8F, .xgdy), (0x9C, .cpy (.mem (.zp 0))),
   (0xA0, .suba (.mem (.idx .Y false 0))), (0xA1, .cmpa (.mem (.idx .Y false 0))),
   (0xA2, .sbca (.mem (.idx .Y false 0))), (0xA3, .subd (.mem (.idx .Y false 0))),
   (0xA4, .anda (.mem (.idx .Y false 0))), (0xA5, .bita (.mem (.idx .Y false 0))),
   (0xA6, .ldaa (.mem (.idx .Y false 0))), (0xA7, .staa (.idx .Y false 0)), (0xA8, .eora (.mem (.idx .Y false 0))),
   (0xA9, .adca (.mem (.idx .Y false 0))), (0xAA, .oraa (.mem (.idx .Y false 0))),
   (0xAB, .adda (.mem (.idx .Y false 0))), (0xAC, .cpy (.mem (.idx .Y false 0))), (0xAD, .jsr (.idx .Y false 0)),
   (0xAE, .lds (.mem (.idx .Y false 0))), (0xAF, .sts (.idx .Y false 0)), (0xBC, .cpy (.mem (.dir 0))),
   (0xCE, .ldy (.imm 0)), (0xDE, .ldy (.mem (.zp 0))), (0xDF, .sty (.zp 0)), (0xE0, .subb (.mem (.idx .Y false 0))),
   (0xE1, .cmpb (.mem (.idx .Y false 0))), (0xE2, .sbcb (.mem (.idx .Y false 0))),
   (0xE3, .addd (.mem (.idx .Y false 0))), (0xE4, .andb (.mem (.idx .Y false 0))),
   (0xE5, .bitb (.mem (.idx .Y false 0))), (0xE6, .ldab (.mem (.idx .Y false 0))), (0xE7, .stab (.idx .Y false 0)),
   (0xE8, .eorb (.mem (.idx .Y false 0))), (0xE9, .adcb (.mem (.idx .Y false 0))),
   (0xEA, .orab (.mem (.idx .Y false 0))), (0xEB, .addb (.mem (.idx .Y false 0))),
   (0xEC, .ldd (.mem (.idx .Y false 0))), (0xED, .std (.idx .Y false 0)), (0xEE, .ldy (.mem (.idx .Y false 0))),
   (0xEF, .sty (.idx .Y false 0)), (0xFE, .ldy (.mem (.dir 0))), (0xFF, .sty (.dir 0))]

/-- The codes after the prebyte 0x1A (R85). -/
def page1A : List (Byte × Instr) :=
  [(0x83, .cmpd (.imm 0)), (0x93, .cmpd (.mem (.zp 0))), (0xA3, .cmpd (.mem (.idx .X false 0))),
   (0xAC, .cpy (.mem (.idx .X false 0))), (0xB3, .cmpd (.mem (.dir 0))), (0xEE, .ldy (.mem (.idx .X false 0))),
   (0xEF, .sty (.idx .X false 0))]

/-- The codes after the prebyte 0xCD (R85). -/
def pageCD : List (Byte × Instr) :=
  [(0xA3, .cmpd (.mem (.idx .Y false 0))), (0xAC, .cpx (.mem (.idx .Y false 0))),
   (0xEE, .ldx (.mem (.idx .Y false 0))), (0xEF, .stx (.idx .Y false 0))]

/-- The form a second code byte selects on a prebyte's page. -/
def onPage : List (Byte × Instr) → Byte → Option Instr
  | [], _ => none
  | (c, i) :: p, b => if c = b then some i else onPage p b

/-- The instruction form whose known code stands at the start of the bytes, and the length of that code (R85, R91 to
R95). -/
def knownCode (rd : Nat → Byte) : Option (Instr × Nat) :=
  if rd 0 = 0x18#8 then (onPage page18 (rd 1)).map (·, 2)
  else if rd 0 = 0x1A#8 then (onPage page1A (rd 1)).map (·, 2)
  else if rd 0 = 0xCD#8 then (onPage pageCD (rd 1)).map (·, 2)
  else (oneByteCode (rd 0)).map (·, 1)

/-- The M6811 codes that the MPU 6916 does not recognise: 0x00 (TEST) and 0x21 (BRN) (R83; D29; entry 3). -/
def droppedCode (b : Byte) : Bool := decide (b = 0x00#8) || decide (b = 0x21#8)

/-! ## The known codes by form: the tables of R91 to R96 -/

/-- R93: `base + n`, base 60 for indexed by X, 70 for direct, 18 60 for indexed by Y. -/
def singleCode (n : Byte) : MemOp → Option (List Byte)
  | .idx .X false _ => some [0x60 + n]
  | .dir _ => some [0x70 + n]
  | .idx .Y false _ => some [0x18, 0x60 + n]
  | .zp _ | .rel _ | .idx .Z _ _ | .idx .X true _ | .idx .Y true _ => none

/-- R94: `base + n` for the memory forms of accumulator A (base 80) or B (base C0). -/
def pairMemCode (base n : Byte) : MemOp → Option (List Byte)
  | .zp _ => some [base + 0x10 + n]
  | .idx .X false _ => some [base + 0x20 + n]
  | .dir _ => some [base + 0x30 + n]
  | .idx .Y false _ => some [0x18, base + 0x20 + n]
  | .rel _ | .idx .Z _ _ | .idx .X true _ | .idx .Y true _ => none

/-- R94, with the immediate form. -/
def pairCode (base n : Byte) : Src8 → Option (List Byte)
  | .imm _ => some [base + n]
  | .mem m => pairMemCode base n m

/-- A code, or none where R95 has a dash. -/
def codeOrNone : List Byte → Option (List Byte)
  | [] => none
  | c :: cs => some (c :: cs)

/-- A row of R95: the codes of the zero-page, X-indexed, direct and Y-indexed forms. -/
def memCode (zp x dir y : List Byte) : MemOp → Option (List Byte)
  | .zp _ => codeOrNone zp
  | .idx .X false _ => codeOrNone x
  | .dir _ => codeOrNone dir
  | .idx .Y false _ => codeOrNone y
  | .rel _ | .idx .Z _ _ | .idx .X true _ | .idx .Y true _ => none

/-- A row of R95 with its immediate form. -/
def wideCode (imm zp x dir y : List Byte) : Src16 → Option (List Byte)
  | .imm _ => codeOrNone imm
  | .mem m => memCode zp x dir y m

/-- The object code of an instruction form, where a source gives one (R91 to R96). -/
def Instr.opcodeBytes : Instr → Option (List Byte)
  -- R91
  | .tab => some [0x16]
  | .tba => some [0x17]
  | .psha => some [0x36]
  | .pshb => some [0x37]
  | .pula => some [0x32]
  | .pulb => some [0x33]
  | .aba => some [0x1B]
  | .sba => some [0x10]
  | .cba => some [0x11]
  | .mul => some [0x3D]
  | .daa => some [0x19]
  | .clc => some [0x0C]
  | .sec => some [0x0D]
  | .clv => some [0x0A]
  | .sev => some [0x0B]
  | .tap => some [0x06]
  | .tpa => some [0x07]
  | .lsrd => some [0x04]
  | .asld => some [0x05]
  | .idiv => some [0x02]
  | .fdiv => some [0x03]
  | .pshx => some [0x3C]
  | .pshy => some [0x18, 0x3C]
  | .pulx => some [0x38]
  | .puly => some [0x18, 0x38]
  | .xgdx => some [0x8F]
  | .xgdy => some [0x18, 0x8F]
  | .inx => some [0x08]
  | .iny => some [0x18, 0x08]
  | .dex => some [0x09]
  | .dey => some [0x18, 0x09]
  | .abx => some [0x3A]
  | .aby => some [0x18, 0x3A]
  | .tsx => some [0x30]
  | .tsy => some [0x18, 0x30]
  | .txs => some [0x35]
  | .tys => some [0x18, 0x35]
  | .ins => some [0x31]
  | .des => some [0x34]
  | .nop => some [0x01]
  | .rts => some [0x39]
  | .cli => some [0x0E]
  | .sei => some [0x0F]
  | .swi => some [0x3F]
  | .wai => some [0x3E]
  | .rti => some [0x3B]
  | .stop => some [0xCF]
  -- R92
  | .bsr _ => some [0x8D]
  | .bra _ => some [0x20]
  | .bmi _ => some [0x2B]
  | .bpl _ => some [0x2A]
  | .beq _ => some [0x27]
  | .bne _ => some [0x26]
  | .bcs _ => some [0x25]
  | .bcc _ => some [0x24]
  | .bvs _ => some [0x29]
  | .bvc _ => some [0x28]
  | .bgt _ => some [0x2E]
  | .blt _ => some [0x2D]
  | .bge _ => some [0x2C]
  | .ble _ => some [0x2F]
  | .bhi _ => some [0x22]
  | .blo _ => some [0x25]
  | .bhs _ => some [0x24]
  | .bls _ => some [0x23]
  -- R93
  | .inc m => singleCode 12 m
  | .inca => some [0x40 + 12]
  | .incb => some [0x50 + 12]
  | .dec m => singleCode 10 m
  | .deca => some [0x40 + 10]
  | .decb => some [0x50 + 10]
  | .neg m => singleCode 0 m
  | .nega => some [0x40 + 0]
  | .negb => some [0x50 + 0]
  | .com m => singleCode 3 m
  | .coma => some [0x40 + 3]
  | .comb => some [0x50 + 3]
  | .clr m => singleCode 15 m
  | .clra => some [0x40 + 15]
  | .clrb => some [0x50 + 15]
  | .tst m => singleCode 13 m
  | .tsta => some [0x40 + 13]
  | .tstb => some [0x50 + 13]
  | .lsr m => singleCode 4 m
  | .lsra => some [0x40 + 4]
  | .lsrb => some [0x50 + 4]
  | .asl m => singleCode 8 m
  | .asla => some [0x40 + 8]
  | .aslb => some [0x50 + 8]
  | .asr m => singleCode 7 m
  | .asra => some [0x40 + 7]
  | .asrb => some [0x50 + 7]
  | .ror m => singleCode 6 m
  | .rora => some [0x40 + 6]
  | .rorb => some [0x50 + 6]
  | .rol m => singleCode 9 m
  | .rola => some [0x40 + 9]
  | .rolb => some [0x50 + 9]
  | .jmp m => singleCode 14 m
  -- R94
  | .ldaa o => pairCode 0x80 6 o
  | .ldab o => pairCode 0xC0 6 o
  | .staa m => pairMemCode 0x80 7 m
  | .stab m => pairMemCode 0xC0 7 m
  | .adda o => pairCode 0x80 11 o
  | .addb o => pairCode 0xC0 11 o
  | .adca o => pairCode 0x80 9 o
  | .adcb o => pairCode 0xC0 9 o
  | .suba o => pairCode 0x80 0 o
  | .subb o => pairCode 0xC0 0 o
  | .sbca o => pairCode 0x80 2 o
  | .sbcb o => pairCode 0xC0 2 o
  | .cmpa o => pairCode 0x80 1 o
  | .cmpb o => pairCode 0xC0 1 o
  | .bita o => pairCode 0x80 5 o
  | .bitb o => pairCode 0xC0 5 o
  | .anda o => pairCode 0x80 4 o
  | .andb o => pairCode 0xC0 4 o
  | .oraa o => pairCode 0x80 10 o
  | .orab o => pairCode 0xC0 10 o
  | .eora o => pairCode 0x80 8 o
  | .eorb o => pairCode 0xC0 8 o
  -- R95
  | .bset m _ => memCode [0x14] [0x1C] [] [0x18, 0x1C] m
  | .bclr m _ => memCode [0x15] [0x1D] [] [0x18, 0x1D] m
  | .ldd o => wideCode [0xCC] [0xDC] [0xEC] [0xFC] [0x18, 0xEC] o
  | .std m => memCode [0xDD] [0xED] [0xFD] [0x18, 0xED] m
  | .addd o => wideCode [0xC3] [0xD3] [0xE3] [0xF3] [0x18, 0xE3] o
  | .subd o => wideCode [0x83] [0x93] [0xA3] [0xB3] [0x18, 0xA3] o
  | .cmpd o => wideCode [0x1A, 0x83] [0x1A, 0x93] [0x1A, 0xA3] [0x1A, 0xB3] [0xCD, 0xA3] o
  | .ldx o => wideCode [0xCE] [0xDE] [0xEE] [0xFE] [0xCD, 0xEE] o
  | .ldy o => wideCode [0x18, 0xCE] [0x18, 0xDE] [0x1A, 0xEE] [0x18, 0xFE] [0x18, 0xEE] o
  | .stx m => memCode [0xDF] [0xEF] [0xFF] [0xCD, 0xEF] m
  | .sty m => memCode [0x18, 0xDF] [0x1A, 0xEF] [0x18, 0xFF] [0x18, 0xEF] m
  | .cpx o => wideCode [0x8C] [0x9C] [0xAC] [0xBC] [0xCD, 0xAC] o
  | .cpy o => wideCode [0x18, 0x8C] [0x18, 0x9C] [0x1A, 0xAC] [0x18, 0xBC] [0x18, 0xAC] o
  | .lds o => wideCode [0x8E] [0x9E] [0xAE] [0xBE] [0x18, 0xAE] o
  | .sts m => memCode [0x9F] [0xAF] [0xBF] [0x18, 0xAF] m
  | .jsr m => memCode [0x9D] [0xAD] [0xBD] [0x18, 0xAD] m
  | .brset m _ _ => memCode [0x12] [0x1E] [] [0x18, 0x1E] m
  | .brclr m _ _ => memCode [0x13] [0x1F] [] [0x18, 0x1F] m
  -- R96, and the verdict "unrecognised": no code in any source
  | .ldah _ | .ldal _ | .stah _ | .stal _ | .thl | .tlh | .pshh | .pshl | .pulh | .pull | .addh _ | .addl _
  | .adch _ | .adcl _ | .subh _ | .subl _ | .sbch _ | .sbcl _ | .cmph _ | .cmpl _ | .bith _ | .bitl _ | .andh _
  | .andl _ | .orah _ | .oral _ | .eorh _ | .eorl _ | .inch | .incl | .dech | .decl | .negh | .negl | .comh | .coml
  | .clrh | .clrl | .tsth | .tstl | .lsrh | .lsrl | .aslh | .asll | .asrh | .asrl | .rorh | .rorl | .rolh | .roll
  | .alh | .slh | .clh | .sxtb | .sxtl | .lde _ | .ste _ | .xgde | .adde _ | .sube _ | .cmpe _ | .aed | .sed | .ced
  | .med | .lsre | .asrd | .asre | .asle | .ldz _ | .stz _ | .pshz | .pulz | .xgdz | .xgex | .xgey | .xgez | .cpz _
  | .inz | .dez | .addx _ | .addy _ | .addz _ | .abz | .tsz | .tzs | .unrecognised => none

/-! ## The decoder -/

/-- The verdict for bytes that are no instruction, with `UNREC_LEN` as its length (R82, R308). -/
def unrecognisedCode (rd : Nat → Byte) : Instr × Nat :=
  (.unrecognised, 1 + Config.unrecTail (rd 0) (rd 1) (rd 2) (rd 3))

/-- An instruction form whose opcode is `n` bytes long, with its operands, and its length (R72, R81). -/
def withOperands (t : Instr) (n : Nat) (rd : Nat → Byte) : Instr × Nat :=
  (t.fill (fun k => rd (n + k)), n + t.operandLen)

/-- The form of an instruction: the instruction with its operand values zero (R71). -/
def Instr.form (i : Instr) : Instr := i.fill (fun _ => 0)

/-- The bytes at the reader's start are those of the list. -/
def beginsWith : List Byte → (Nat → Byte) → Bool
  | [], _ => true
  | b :: bs, rd => decide (rd 0 = b) && beginsWith bs (fun k => rd (k + 1))

/-- One list of bytes begins with the other. -/
def overlap : List Byte → List Byte → Bool
  | b :: bs, c :: cs => decide (b = c) && overlap bs cs
  | _, _ => true

/-- An opcode that no known code begins with and that begins with none, of at most four bytes (R71, R84, R96; entry 2). -/
def freeOpcode : List Byte → Bool
  | [] => false
  | [b] => !droppedCode b && decide (b ≠ 0x18#8 ∧ b ≠ 0x1A#8 ∧ b ≠ 0xCD#8) && (oneByteCode b).isNone
  | b :: c :: bs => !droppedCode b && (knownCode (fun k => if k = 0 then b else c)).isNone && decide (bs.length ≤ 2)

/-- A row that a code table can have: an opcode of at least one byte, and a form of Table 1 (R70, R71, R87). -/
def codeRow (r : Config.CodeRow) : Bool := !r.1.isEmpty && r.2.wellFormed && decide (r.2.form = r.2)

/-- Two rows of a code table: neither opcode begins with the other, so that the opcode alone tells the length, and the forms
differ, so that the table is injective on forms (R70, R71, R81). -/
def apart (r q : Config.CodeRow) : Bool := !overlap r.1 q.1 && decide (r.2 ≠ q.2)

/-- The rows are a proper code table. -/
def codeTable : List Config.CodeRow → Bool
  | [] => true
  | r :: rs => codeRow r && rs.all (apart r) && codeTable rs

/-- A row beside the M68HC11's codes: a free opcode for a form without a known code (R84, R96). -/
def openRow (r : Config.CodeRow) : Bool := freeOpcode r.1 && r.2.opcodeBytes.isNone

/-- The codes that no source gives, beside the M68HC11's (R96; entry 2). -/
def openTable : List Config.CodeRow :=
  if codeTable Config.opcRows && Config.opcRows.all openRow then Config.opcRows else []

/-- The codes of another `OPC`: its rows where they are a proper code table, else none (R71; entry 1). -/
def ownTable (rows : List Config.CodeRow) : List Config.CodeRow := if codeTable rows then rows else []

/-- The form whose opcode stands at the start of the bytes, and the length of that opcode. -/
def findCode : List Config.CodeRow → (Nat → Byte) → Option (Instr × Nat)
  | [], _ => none
  | (c, t) :: rs, rd => if beginsWith c rd then some (t, c.length) else findCode rs rd

/-- The opcode of a form. -/
def findForm : List Config.CodeRow → Instr → Option (List Byte)
  | [], _ => none
  | (c, t) :: rs, i => if t = i then some c else findForm rs i

/-- `OPC`: the form whose opcode stands at the start of the bytes, and the length of that opcode; none where the code is
unrecognised (R71, R82). -/
def opcode (c : Config.Opc) (rd : Nat → Byte) : Option (Instr × Nat) :=
  match c with
  | .m68hc11 =>
    match knownCode rd with
    | some p => some p
    | none => if droppedCode (rd 0) then none else findCode openTable rd
  | .table rows => findCode (ownTable rows) rd

/-- `OPC` with the operands: the instruction at the start of the bytes and its length (R71, R72, R82). -/
def decode (c : Config.Opc) (rd : Nat → Byte) : Instr × Nat :=
  match opcode c rd with
  | some (t, n) => withOperands t n rd
  | none => unrecognisedCode rd

/-- No opcode is longer than this many bytes (R71). -/
def maxOpcode : Config.Opc → Nat
  | .m68hc11 => 4
  | .table rows => (ownTable rows).foldl (fun n r => max n r.1.length) 0

/-- The bytes of a list as a reader, zero beyond its end. -/
def bytesOf (bs : List Byte) (k : Nat) : Byte := bs.getD k 0

/-- Byte `k` of an instruction whose first `nbits` bits are `w`, the first byte lowest, every bit above `nbits` zero. -/
def wordByte (nbits w k : Nat) : Byte := BitVec.ofNat 8 ((w % 2 ^ nbits) / 2 ^ (8 * k))

/-- The instruction the decoder reads from `nbits` bits under the default `OPC`, the first byte lowest. It always answers one:
bytes that are no instruction are the instruction `unrecognised` (R82). -/
def decodeTableWord (nbits w : Nat) : Option Instr := some (decode Config.defaults.opc (wordByte nbits w)).1

/-! ## The encoder -/

/-- The operand bytes of a memory operand (R72). -/
def MemOp.bytes : MemOp → List Byte
  | .zp a => [a]
  | .dir a => [hiByte a, loByte a]
  | .idx _ _ off => [off]
  | .rel off => [hiByte off, loByte off]

/-- The operand bytes of an 8-bit source (R72). -/
def Src8.bytes : Src8 → List Byte
  | .imm v => [v]
  | .mem m => m.bytes

/-- The operand bytes of a 16-bit source (R72). -/
def Src16.bytes : Src16 → List Byte
  | .imm v => [hiByte v, loByte v]
  | .mem m => m.bytes

/-- The operand bytes of an instruction (R72). -/
def Instr.operandBytes : Instr → List Byte
  | .ldaa o | .ldab o | .ldah o | .ldal o | .adda o | .addb o | .addh o | .addl o | .adca o | .adcb o | .adch o
  | .adcl o | .suba o | .subb o | .subh o | .subl o | .sbca o | .sbcb o | .sbch o | .sbcl o | .cmpa o | .cmpb o
  | .cmph o | .cmpl o | .bita o | .bitb o | .bith o | .bitl o | .anda o | .andb o | .andh o | .andl o | .oraa o
  | .orab o | .orah o | .oral o | .eora o | .eorb o | .eorh o | .eorl o => o.bytes
  | .ldd o | .lde o | .addd o | .adde o | .subd o | .sube o | .cmpd o | .cmpe o | .ldx o | .ldy o | .ldz o | .cpx o
  | .cpy o | .cpz o | .addx o | .addy o | .addz o | .lds o => o.bytes
  | .staa m | .stab m | .stah m | .stal m | .inc m | .dec m | .neg m | .com m | .clr m | .tst m | .lsr m | .asl m
  | .asr m | .ror m | .rol m | .std m | .ste m | .stx m | .sty m | .stz m | .sts m | .jmp m | .jsr m => m.bytes
  | .bset m mask | .bclr m mask => m.bytes ++ [mask]
  | .brset m mask off | .brclr m mask off => m.bytes ++ [mask, off]
  | .bsr off | .bra off | .bmi off | .bpl off | .beq off | .bne off | .bcs off | .bcc off | .bvs off | .bvc off
  | .bgt off | .blt off | .bge off | .ble off | .bhi off | .blo off | .bhs off | .bls off => [off]
  | .tab | .tba | .thl | .tlh | .psha | .pshb | .pshh | .pshl | .pula | .pulb | .pulh | .pull | .inca | .incb
  | .inch | .incl | .deca | .decb | .dech | .decl | .nega | .negb | .negh | .negl | .coma | .comb | .comh | .coml
  | .clra | .clrb | .clrh | .clrl | .tsta | .tstb | .tsth | .tstl | .lsra | .lsrb | .lsrh | .lsrl | .asla | .aslb
  | .aslh | .asll | .asra | .asrb | .asrh | .asrl | .rora | .rorb | .rorh | .rorl | .rola | .rolb | .rolh | .roll
  | .aba | .alh | .sba | .slh | .cba | .clh | .sxtb | .sxtl | .mul | .daa | .clc | .sec | .clv | .sev | .tap | .tpa
  | .xgde | .aed | .sed | .ced | .med | .lsrd | .lsre | .asrd | .asre | .asld | .asle | .idiv | .fdiv | .pshx
  | .pshy | .pshz | .pulx | .puly | .pulz | .xgdx | .xgdy | .xgdz | .xgex | .xgey | .xgez | .inx | .iny | .inz
  | .dex | .dey | .dez | .abx | .aby | .abz | .tsx | .tsy | .tsz | .txs | .tys | .tzs | .ins | .des | .nop | .rts
  | .cli | .sei | .swi | .wai | .rti | .stop | .unrecognised => []

/-- The instruction that a code stands for where two mnemonics share it: BLO is BCS and BHS is BCC (R90; U15;
entry 32). -/
def Instr.canonical (i : Instr) : Instr :=
  if let .blo off := i then .bcs off else if let .bhs off := i then .bcc off else i

/-- The instruction that the code of `i` stands for: `i` itself where `OPC` gives it an opcode of its own, BCS for BLO and BCC
for BHS where it does not (R90; U15; entry 32). -/
def Instr.readAs (c : Config.Opc) (i : Instr) : Instr :=
  match c with
  | .m68hc11 => i.canonical
  | .table rows => if (findForm (ownTable rows) i.form).isSome then i else i.canonical

/-- The opcode of an instruction's form (R71, R90). -/
def Instr.code (c : Config.Opc) (i : Instr) : Option (List Byte) :=
  match c with
  | .m68hc11 =>
    match i.opcodeBytes with
    | some b => some b
    | none => findForm openTable i.form
  | .table rows => findForm (ownTable rows) (i.readAs c).form

/-- The bytes of an instruction whose form has an opcode: the opcode, then the operand bytes (R70, R72). -/
def encode (c : Config.Opc) (i : Instr) : Option (List Byte) := (i.code c).map (· ++ i.operandBytes)

end Sys2Proof
end

