-- ==== Sys2Proof/Machine/Memory.lean ====
section
/-! DEFINITION. Memory: 65536 bytes, one per 16-bit address (`20_memory.md` R40, R41), kept as the list of the cells
that differ from what an unlisted address reads as, addresses strictly rising. All addresses are 16-bit values and
wrap (R45); no access can fail (R52). A store reaches the cells only where the memory map has RAM (R5, R48; D7). -/

namespace Sys2Proof.Machine

/-- The listed cells, in the canonical form `Memory.wf`. -/
abbrev Memory := List Host.Cell

/-- What a byte that nothing has written reads as. DESIGN CHOICE, unsafe (entry 21): the spec leaves the contents of
memory at power-up unspecified (R30, `InitMem`). -/
def unlistedByte : Byte := 0x00#8

/-- The byte listed at address `k`, or what an unlisted address reads as. -/
def Memory.lookup : Memory → Nat → Byte
  | [], _ => unlistedByte
  | (j, v) :: m, k => if j = k then v else Memory.lookup m k

/-- The cell at `k` in front of `m`, unless it holds what an unlisted address reads as. -/
def Memory.cons (k : Nat) (v : Byte) (m : Memory) : Memory :=
  if v = unlistedByte then m else (k, v) :: m

/-- `m` with the byte `v` at address `k`, in canonical form. -/
def Memory.put : Memory → Nat → Byte → Memory
  | [], k, v => Memory.cons k v []
  | (j, w) :: m, k, v =>
    if k < j then Memory.cons k v ((j, w) :: m)
    else if k = j then Memory.cons k v m
    else (j, w) :: Memory.put m k v

/-- The cells of `m` have strictly rising addresses from `lo` on, all below 65536, and none holds what an unlisted
address reads as. -/
def Memory.wfFrom : Nat → Memory → Bool
  | _, [] => true
  | lo, (k, v) :: m => decide (lo ≤ k) && decide (k < 65536) && decide (v ≠ unlistedByte) && Memory.wfFrom (k + 1) m

/-- The canonical form: equal memories are equal lists. -/
def Memory.wf (m : Memory) : Bool := Memory.wfFrom 0 m

/-- The byte that memory holds at an address (R41, R43). -/
def Memory.read (m : Memory) (a : Word) : Byte := m.lookup a.toNat

/-- The byte at an address replaced (R43). -/
def Memory.write (m : Memory) (a : Word) (v : Byte) : Memory := m.put a.toNat v

/-- What stands behind an address: the first region that holds it says so, and outside all regions it is read-write memory
(R5, R321; D7). -/
def backing : List Config.Region → Word → Config.Backing
  | [], _ => .ram
  | r :: rs, p => if r.first.toNat ≤ p.toNat ∧ p.toNat ≤ r.last.toNat then r.kind else backing rs p

/-- `MemWrite(addr, 1, v)` under a memory map: only RAM takes the byte (R43, R48; D7; entry 22). -/
def Memory.store (map : List Config.Region) (m : Memory) (a : Word) (v : Byte) : Memory :=
  if backing map a = .ram then m.write a v else m

/-- `MemWrite(addr, 2, v)`: the byte at the lower address first (R43, R47). -/
def Memory.store16 (map : List Config.Region) (m : Memory) (a : Word) (v : Word) : Memory :=
  (m.store map a (hiByte v)).store map (a + 1) (loByte v)

/-- The bytes of `bs` written one after the other, each one address below the one before: a stack growing down
(R51, R109). -/
def Memory.pushAll (map : List Config.Region) : Memory → Word → List Byte → Memory
  | m, _, [] => m
  | m, p, v :: bs => Memory.pushAll map (m.store map p v) (p - 1) bs

end Sys2Proof.Machine
end

