-- ==== Sys2Proof/Machine/State.lean ====
section
/-! DEFINITION. The state of the MPU 6916 as plain data: every register of `10_state.md` R10 to R16, memory (R26), the run
state (R27), and fields of the model's own: the configuration (`00_scope.md` R5), the environment's input schedule (R28), the
draw counter, and where the executing instruction lies (R81). -/

namespace Sys2Proof.Machine

/-- The run state (R27): fetching and executing; waiting after WAI; halted after STOP. -/
inductive RunState
  | running
  | waiting
  | stopped
  deriving DecidableEq, Repr

/-- The environment's two signals at one step: "Reset" and "processor interrupt" (R28, R301, R340). -/
structure Inputs where
  reset : Bool
  irq : Bool
  deriving DecidableEq, Repr

/-- The whole machine (R29). D and E are views of A, B and of H, L (R11). -/
structure State where
  /-- Accumulator A (R10). -/
  a : Byte
  /-- Accumulator B (R10). -/
  b : Byte
  /-- Accumulator H (R10). -/
  h : Byte
  /-- Accumulator L (R10). -/
  l : Byte
  /-- Index register X (R12). -/
  x : Word
  /-- Index register Y (R12). -/
  y : Word
  /-- Index register Z (R12). -/
  z : Word
  /-- The stack pointer S, at the next free byte (R13). -/
  sp : Word
  /-- The program counter (R14). -/
  pc : Word
  /-- The condition code register: S X H I N Z V C from bit 7 down to bit 0 (R16). -/
  ccr : Byte
  /-- Memory (R26). -/
  mem : Memory
  /-- The run state (R27). -/
  run : RunState
  /-- The model's own: the signals at this step and the following ones; both are low after the last (entry 16). -/
  inputs : List Inputs
  /-- The model's own: which draw of the free values is next (entry 27). -/
  draws : Nat
  /-- The model's own: the parameters of R5 that have a default; no step changes them (entry 43). -/
  cfg : Config.Params
  /-- The model's own: the address of the first opcode byte of the instruction that executes (R81; entry 44). -/
  opcodeAt : Word
  /-- The model's own: the address of the first byte after that opcode (R72, R81; entry 44). -/
  operandAt : Word
  deriving DecidableEq, Repr

/-- The faults: none. The spec's list of events is closed and every one continues at a vector (R300): no memory access
faults (R52), every byte sequence decodes (R82), every instruction is total. An empty list is unsafe only where the
hardware could stop where the spec says it does not (entry 36). -/
inductive Fault
  deriving DecidableEq, Repr

/-- The refusals. -/
inductive Refusal
  /-- Raised by an arm of `exec` whose instruction has no meaning yet; no arm of this model raises it. Safe. -/
  | notModelled (mnemonic : String)
  deriving DecidableEq, Repr

/-- What one step answers. -/
abbrev Result := Host.Outcome State Fault Refusal

/-- The machine right after reset (R30, R341, R342): CCR is 0xFF, PC the vector at RESET_VECTOR_LOC, the run state
Running, nothing in memory written. DESIGN CHOICE, unsafe (entries 16, 20, 21, 27, 43, 44): the spec gives A, B, H, L, X, Y, Z
and S no value, and they are zero here; the input schedule is empty, nothing has been drawn, the configuration is the one of
R5's defaults, and no instruction is executing. -/
def State.reset : State where
  a := 0
  b := 0
  h := 0
  l := 0
  x := 0
  y := 0
  z := 0
  sp := 0
  pc := join (Memory.read [] Config.resetVectorLoc) (Memory.read [] (Config.resetVectorLoc + 1))
  ccr := 0xFF#8
  mem := []
  run := .running
  inputs := []
  draws := 0
  cfg := Config.defaults
  opcodeAt := 0
  operandAt := 0

end Sys2Proof.Machine
end

