-- ==== Sys2Proof/Machine/Flags.lean ====
section
/-! DEFINITION. The condition codes: their places in CCR (`10_state.md` R16), the ways an instruction writes them
(`40_common_semantics.md` R117 to R119), and every result-and-flag computation of the spec (R113 to R118, R147 to R149,
R168, R169). -/

namespace Sys2Proof.Machine

/-- The eight bits of CCR (R16). -/
inductive Flag
  | S | X | H | I | N | Z | V | C
  deriving DecidableEq, Repr

/-- The bit of CCR that holds a flag (R16). -/
def Flag.pos : Flag → Nat
  | .S => 7
  | .X => 6
  | .H => 5
  | .I => 4
  | .N => 3
  | .Z => 2
  | .V => 1
  | .C => 0

/-- `CCR[F]` of a CCR value (R7). -/
def ccrBit (c : Byte) (f : Flag) : Bool := c.getLsbD f.pos

/-- The CCR value with one bit written and the others left (R7). -/
def ccrSet (c : Byte) (f : Flag) (v : Bool) : Byte :=
  if v then c ||| (1#8 <<< f.pos) else c &&& ~~~(1#8 <<< f.pos)

/-- `CCR[F]` (R7). -/
def State.flag (s : State) (f : Flag) : Bool := ccrBit s.ccr f

/-- `CCR[F] <- v` (R7). -/
def State.setFlag (s : State) (f : Flag) (v : Bool) : State := { s with ccr := ccrSet s.ccr f v }

/-- A CCR value with N and Z of a result (R21, R22, R117). -/
def ccrNZ {w : Nat} (c : Byte) (r : BitVec w) : Byte := ccrSet (ccrSet c .N r.msb) .Z (decide (r = 0))

/-- A CCR value with N and Z of a result, and V (R119). -/
def ccrNZV {w : Nat} (c : Byte) (r : BitVec w) (v : Bool) : Byte := ccrSet (ccrNZ c r) .V v

/-- A CCR value with N and Z of a result, V and C (R119). -/
def ccrNZVC {w : Nat} (c : Byte) (r : BitVec w) (v k : Bool) : Byte := ccrSet (ccrNZV c r v) .C k

/-- The columns `N Z V -`: N and Z of the result, V given, C left (R119). -/
def State.setNZV {w : Nat} (s : State) (r : BitVec w) (v : Bool) : State := { s with ccr := ccrNZV s.ccr r v }

/-- The columns `N Z 0 -` of loads, stores, transfers and logic (R117). -/
def State.setNZ0 {w : Nat} (s : State) (r : BitVec w) : State := s.setNZV r false

/-- The columns `N Z V C` (R119). -/
def State.setNZVC {w : Nat} (s : State) (r : BitVec w) (v c : Bool) : State := { s with ccr := ccrNZVC s.ccr r v c }

/-- A result with the flags beside N and Z that its computation gives. -/
structure Alu (w : Nat) where
  value : BitVec w
  overflow : Bool
  carry : Bool
  half : Bool

/-- `CCR[H] <- v` if the instruction is one of `H_WRITERS` (R5, R19; D10; entry 9). -/
def State.setHalf (s : State) (w : Config.HWriter) (v : Bool) : State :=
  if w ∈ s.cfg.hWriters then s.setFlag .H v else s

/-- The half-carry of an instruction other than an 8-bit addition, if it is one of `H_WRITERS`: no rule gives it a value, so it is
a free one (R19; D10, U7; entry 9). -/
def State.freeHalf (s : State) (w : Config.HWriter) : State := s.setHalf w (Config.halfOther s.draws)

/-- The columns `N Z V C` from a computed result (R119). -/
def State.setAlu {w : Nat} (s : State) (r : Alu w) : State := s.setNZVC r.value r.overflow r.carry

/-- `Add8` and `Add16` with a carry in: the sum, V (both operands of one sign, the result of the other), C (the carry
out of the top bit) and H (the carry from bit 3 to bit 4) (R113, R115). -/
def addAlu {w : Nat} (p q : BitVec w) (cin : Bool) : Alu w :=
  let sum := p.toNat + q.toNat + cin.toNat
  let r := BitVec.ofNat w sum
  { value := r
    overflow := (p.msb == q.msb) && (r.msb != p.msb)
    carry := decide (2 ^ w ≤ sum)
    half := decide (16 ≤ p.toNat % 16 + q.toNat % 16 + cin.toNat) }

/-- `Sub8` and `Sub16` with a borrow in: the difference, V (operands of different signs, the result not of the first's)
and C (the borrow) (R114, R116). H is no output of a subtraction (D10). -/
def subAlu {w : Nat} (p q : BitVec w) (bin : Bool) : Alu w :=
  let r := p - q - BitVec.ofNat w bin.toNat
  { value := r
    overflow := (p.msb != q.msb) && (r.msb != p.msb)
    carry := decide (p.toNat < q.toNat + bin.toNat)
    half := false }

/-- INC: `v + 1`, V where 0x7F becomes 0x80 (R147); C is not written. -/
def incAlu (v : Byte) : Alu 8 :=
  { value := v + 1, overflow := decide (v = 0x7F#8), carry := false, half := false }

/-- DEC: `v - 1`, V where 0x80 becomes 0x7F (R148); C is not written. -/
def decAlu (v : Byte) : Alu 8 :=
  { value := v - 1, overflow := decide (v = 0x80#8), carry := false, half := false }

/-- NEG: the subtraction `0 - v` (R149). -/
def negAlu (v : Byte) : Alu 8 := subAlu 0x00#8 v false

/-- COM: the complement, V = 0, C = 1 (R150). -/
def comAlu (v : Byte) : Alu 8 := { value := ~~~v, overflow := false, carry := true, half := false }

/-- CLR: zero, V = 0, C = 0 (R151). -/
def clrAlu : Alu 8 := { value := 0x00#8, overflow := false, carry := false, half := false }

/-- TST: the operand itself, V = 0, C = 0 (R154). -/
def tstAlu (v : Byte) : Alu 8 := { value := v, overflow := false, carry := false, half := false }

/-- A shift or rotate result with the bit shifted out: V is the new N xor the new C (R118). -/
def shiftAlu {w : Nat} (r : BitVec w) (out : Bool) : Alu w :=
  { value := r, overflow := r.msb ^^ out, carry := out, half := false }

/-- `Lsr`: zero into the top bit, bit 0 out (R118). -/
def lsrAlu {w : Nat} (v : BitVec w) : Alu w := shiftAlu (v >>> 1) (v.getLsbD 0)

/-- `Asr`: the sign bit kept, bit 0 out (R118). -/
def asrAlu {w : Nat} (v : BitVec w) : Alu w := shiftAlu (v.sshiftRight 1) (v.getLsbD 0)

/-- `Asl`: zero into bit 0, the top bit out (R118). -/
def aslAlu {w : Nat} (v : BitVec w) : Alu w := shiftAlu (v <<< 1) v.msb

/-- `Ror`: the carry into bit 7, bit 0 out (R118). -/
def rorAlu (v : Byte) (cin : Bool) : Alu 8 :=
  shiftAlu ((v >>> 1) ||| (BitVec.ofNat 8 cin.toNat <<< 7)) (v.getLsbD 0)

/-- `Rol`: the carry into bit 0, bit 7 out (R118). -/
def rolAlu (v : Byte) (cin : Bool) : Alu 8 :=
  shiftAlu ((v <<< 1) ||| BitVec.ofNat 8 cin.toNat) v.msb

/-- `A * B`, unsigned, which fits 16 bits (R168). -/
def mulProduct (p q : Byte) : Word := zext16 p * zext16 q

/-- `MUL_C`: bit 7 of the product as on the M68HC11, or any function of A and B (R168; D12; entry 12). -/
def mulCarry (c : Config.Rule) (p q : Byte) : Bool :=
  match c with
  | .m68hc11 => (mulProduct p q).getLsbD 7
  | .other => Config.mulCOther p q

/-- A, C and H are as an addition of two BCD bytes, with or without a carry in, leaves them: the low digit sum is 0 to
19 and the high digit sum is 0 to 18 over the half-carry (R169, R345). -/
def daaDefined (a : Byte) (c h : Bool) : Bool :=
  (!h || decide (a.toNat % 16 ≤ 3)) &&
    (if c then decide (a.toNat / 16 ≤ 2 + h.toNat) else decide (h.toNat ≤ a.toNat / 16))

/-- The default `DAA_FN`, the M68HC11's: 0x06 for the low digit, 0x60 and a carry for the high one (R169; D11; entry 10). -/
def daaDefault (a : Byte) (c h : Bool) : Byte × Bool :=
  let lo := a.toNat % 16
  let hi := a.toNat / 16
  let low := h || decide (9 < lo)
  let high := c || decide (9 < hi) || (decide (9 ≤ hi) && decide (9 < lo))
  (a + (if low then 0x06#8 else 0x00#8) + (if high then 0x60#8 else 0x00#8), high)

/-- `DAA_FN`: where A, C and H come from a BCD addition, the M68HC11's adjustment or any function of them; a free value
elsewhere, where no source backs a result (R169, R345; U6; entry 10). -/
def daaFn (f : Config.Rule) (n : Nat) (a : Byte) (c h : Bool) : Byte × Bool :=
  if daaDefined a c h then
    match f with
    | .m68hc11 => daaDefault a c h
    | .other => Config.daaFnOther a c h
  else Config.daaOther n a c h

/-- The value that N and Z describe after XGDE: the new D or the new E (R192; D13; entry 14). -/
def xgdeFlags (c : Config.XgdeFrom) (newD newE : Word) : Word :=
  match c with
  | .newD => newD
  | .newE => newE

end Sys2Proof.Machine
end

