-- ==== Sys2Proof/Machine/Ops.lean ====
section
/-! DEFINITION. The named operations over registers, memory and the stack (`40_common_semantics.md` R106 to R112), taking an
interrupt or trap and returning from one (`60_exceptions.md` R304, R316; `47_processor_control.md` R278, R279), the reset
sequence (`70_reset_and_hazards.md` R341), the sampling of the inputs (R315) and the fetch (R100). -/

namespace Sys2Proof.Machine

/-! ## Registers -/

/-- `x[a]` for an accumulator (R7, R10). -/
def State.acc (s : State) : Acc → Byte
  | .A => s.a
  | .B => s.b
  | .H => s.h
  | .L => s.l

/-- `x[a] <- v` for an accumulator (R7, R10). -/
def State.setAcc (s : State) : Acc → Byte → State
  | .A, v => { s with a := v }
  | .B, v => { s with b := v }
  | .H, v => { s with h := v }
  | .L, v => { s with l := v }

/-- D is A ++ B and E is H ++ L (R11). -/
def State.dbl (s : State) : Dbl → Word
  | .D => join s.a s.b
  | .E => join s.h s.l

/-- Writing D writes A and B, writing E writes H and L (R11). -/
def State.setDbl (s : State) : Dbl → Word → State
  | .D, v => { s with a := hiByte v, b := loByte v }
  | .E, v => { s with h := hiByte v, l := loByte v }

/-- `x[ix]` for an index register (R7, R12). -/
def State.ireg (s : State) : IReg → Word
  | .X => s.x
  | .Y => s.y
  | .Z => s.z

/-- `x[ix] <- v` for an index register (R7, R12). -/
def State.setIreg (s : State) : IReg → Word → State
  | .X, v => { s with x := v }
  | .Y, v => { s with y := v }
  | .Z, v => { s with z := v }

/-! ## Memory -/

/-- The address is backed by memory, RAM or ROM (R5, R49; D7). -/
def State.backed (s : State) (a : Word) : Bool := decide (backing s.cfg.memMap a ≠ .bus)

/-- The address is backed by RAM (R5, R49; D7). -/
def State.writable (s : State) (a : Word) : Bool := decide (backing s.cfg.memMap a = .ram)

/-- `MemRead(addr, 1)`: the byte that memory holds, or a free value where there is none (R43, R48; D7; entry 22). -/
def State.read8 (s : State) (a : Word) : Byte := if s.backed a then s.mem.read a else Config.busRead s.draws a

/-- `MemRead(addr, 2)`: high byte at `addr`, low byte at `(addr + 1) mod 2^16` (R42, R43, R45). -/
def State.read16 (s : State) (a : Word) : Word := join (s.read8 a) (s.read8 (a + 1))

/-- `MemWrite(addr, 1, v)` (R43). -/
def State.write8 (s : State) (a : Word) (v : Byte) : State := { s with mem := s.mem.store s.cfg.memMap a v }

/-- `MemWrite(addr, 2, v)` (R43). -/
def State.write16 (s : State) (a : Word) (v : Word) : State := { s with mem := s.mem.store16 s.cfg.memMap a v }

/-! ## The stack -/

/-- Bytes pushed in turn: each is written at S, then S goes down by one (R109). -/
def State.push (s : State) (bs : List Byte) : State :=
  { s with mem := s.mem.pushAll s.cfg.memMap s.sp bs, sp := s.sp - BitVec.ofNat 16 bs.length }

/-- `Push8(v)` (R109). -/
def State.push8 (s : State) (v : Byte) : State := s.push [v]

/-- The bytes of `Push16(v)`: the low byte first (R111). -/
def pushed16 (v : Word) : List Byte := [loByte v, hiByte v]

/-- `Push16(v)` (R111). -/
def State.push16 (s : State) (v : Word) : State := s.push (pushed16 v)

/-- The `n`-th byte a run of pulls returns: it lies at S + n (R110). -/
def State.pulled (s : State) (n : Word) : Byte := s.read8 (s.sp + n)

/-- The word `Pull16()` returns when its first byte is the `n`-th pulled: the high byte first (R112). -/
def State.pulled16 (s : State) (n : Word) : Word := join (s.pulled n) (s.pulled (n + 1))

/-- The state after `n` bytes have been pulled (R110, R112). -/
def State.dropped (s : State) (n : Word) : State := { s with sp := s.sp + n }

/-! ## Interrupts, traps and the return from them -/

/-- The bytes of the acknowledge phase in the order they are pushed: Z, H, L, the return address, Y, X, A, B, CCR
(R304, R305). -/
def State.frameBytes (s : State) (ret : Word) : List Byte :=
  pushed16 s.z ++ [s.h, s.l] ++ pushed16 ret ++ pushed16 s.y ++ pushed16 s.x ++ [s.a, s.b, s.ccr]

/-- The thirteen pushes of the acknowledge phase (R304, R305). -/
def State.pushFrame (s : State) (ret : Word) : State := s.push (s.frameBytes ret)

/-- The end of the acknowledge phase: CCR[I] is set, PC takes the vector, the machine runs (R304, R316). -/
def State.enterAt (s : State) (vec : Word) : State :=
  { s with ccr := ccrSet s.ccr .I true, pc := s.read16 vec, run := .running }

/-- `InterruptEntry(ret, vec_loc)`: the interrupt acknowledge phase of every event but reset (R304). -/
def State.interruptEntry (s : State) (ret vec : Word) : State := (s.pushFrame ret).enterAt vec

/-- The thirteen pulls of RTI: CCR, B, A, X, Y, the return address, L, H, Z in this order, and the return address into PC
(R279). -/
def State.returnFromInterrupt (s : State) : State :=
  { s with
    ccr := s.pulled 1, b := s.pulled 2, a := s.pulled 3, x := s.pulled16 4, y := s.pulled16 6, pc := s.pulled16 8
    l := s.pulled 10, h := s.pulled 11, z := s.pulled16 12, sp := s.sp + 13 }

/-- The reset sequence: CCR is 0xFF, PC the reset vector, the machine runs; memory is left; A, B, H, L, X, Y, Z and S
hold free values (R341, R342; D18; entry 19). -/
def State.resetSequence (s : State) : State :=
  let r := Config.initRegs s.draws
  { s with
    a := r.a, b := r.b, h := r.h, l := r.l, x := r.x, y := r.y, z := r.z, sp := r.sp
    pc := s.read16 Config.resetVectorLoc, ccr := 0xFF#8, run := .running }

/-! ## The boundary and the fetch -/

/-- The signals at this step; both low once the schedule is used up (R301, R340; entry 16). -/
def State.input (s : State) : Inputs := s.inputs.headD { reset := false, irq := false }

/-- A step begins: the inputs are sampled once (R315), and the free values of this step are a new draw (entry 27). -/
def State.sampled (s : State) : State := { s with inputs := s.inputs.tail, draws := s.draws + 1 }

/-- A hardware interrupt is accepted: the signal is asserted and CCR[I] is clear (R302, R303). -/
def State.acceptsIrq (s : State) : Bool := s.input.irq && !s.flag .I

/-- What happens at this boundary instead of an instruction, if anything does: reset first, then, by run state, nothing
(Stopped), the awaited interrupt or nothing (Waiting), a hardware interrupt (Running) (R310, R315, R316, R317). -/
def State.boundaryEvent (s : State) : Option State :=
  if s.input.reset then some s.sampled.resetSequence
  else match s.run with
    | .stopped => some s.sampled
    | .waiting => some (if s.acceptsIrq then s.sampled.enterAt Config.hwiVectorLoc else s.sampled)
    | .running => if s.acceptsIrq then some (s.sampled.interruptEntry s.pc Config.hwiVectorLoc) else none

/-- The byte an instruction fetch reads at an address: what memory holds now, or a free value where there is none (R40, R56;
D7; entry 22). -/
def State.fetch8 (s : State) (a : Word) : Byte := if s.backed a then s.mem.read a else Config.busFetch s.draws a

/-- The `k`-th byte of the instruction at PC (R56, R81). -/
def State.codeByte (s : State) (k : Nat) : Byte := s.fetch8 (s.pc + BitVec.ofNat 16 k)

/-- The instruction at PC and its length (R100). -/
def State.fetch (s : State) : Instr × Nat := decode s.cfg.opc s.codeByte

/-- The state in which an instruction of `n` bytes at PC executes, `operands` of them after its opcode: the inputs sampled and
PC at `Next_PC`, the default successor (R81, R100). -/
def State.movedPast (s : State) (n operands : Nat) : State :=
  { s.sampled with
    pc := s.pc + BitVec.ofNat 16 n, opcodeAt := s.pc
    operandAt := s.pc + BitVec.ofNat 16 n - BitVec.ofNat 16 operands }

/-- The state in which the instruction at PC executes (R100, R81). -/
def State.advanced (s : State) : State := s.movedPast s.fetch.2 s.fetch.1.operandLen

/-- The bytes of `bs` placed in memory from `a` on, from outside the machine (entry 28). -/
def State.writeBytes (s : State) (a : Word) : List Byte → State
  | [] => s
  | v :: bs => { s with mem := s.mem.write a v }.writeBytes (a + 1) bs

/-- The longest instruction: the longest opcode with the four operand bytes of a relative or direct operand, a mask and a branch
offset (R72). -/
def State.maxLength (s : State) : Nat := maxOpcode s.cfg.opc + 4

/-- Memory stands behind all the bytes of the longest instruction at PC. -/
def State.codeBacked (s : State) : Bool := (List.range s.maxLength).all (fun k => s.backed (s.pc + BitVec.ofNat 16 k))

/-- The instruction whose bits are `w` stored at PC, the machine running and both signals low at the next step, so that
this step runs it; where the map has no memory at PC it becomes the map that is RAM everywhere (entry 28). -/
def State.placeInstr (s : State) (nbits w : Nat) : State :=
  { s.writeBytes s.pc ((List.range s.maxLength).map (wordByte nbits w)) with
    run := .running, inputs := { reset := false, irq := false } :: s.inputs
    cfg := { s.cfg with memMap := if s.codeBacked then s.cfg.memMap else [] } }

end Sys2Proof.Machine
end

