-- ==== Sys2Proof/Machine/Operands.lean ====
section
/-! DEFINITION. Effective addresses and operand access (`40_common_semantics.md` R101 to R108). PC already holds `Next_PC`
when an instruction executes (R100); the address, offset or branch field that an operand is read from ends the instruction or
begins its operand bytes (R72). -/

namespace Sys2Proof.Machine

/-- "PC" in the relative and short-relative modes, for an offset field at `field` (R5, R104, R105; D4; entry 8). -/
def State.relBase (s : State) (field : Word) : Word :=
  match s.cfg.relPcBase with
  | .nextPc => s.pc
  | .opcode => s.opcodeAt
  | .offsetField => field

/-- `EA(m)` (R101 to R104): zero page, direct, indexed with an unsigned or a signed offset, relative. -/
def ea : MemOp → State → Word
  | .zp a, _ => zext16 a
  | .dir a, _ => a
  | .idx r signed off, s => s.ireg r + (if signed then sext16 off else zext16 off)
  | .rel off, s => s.relBase s.operandAt + off

/-- `Target(short offset8)`: the offset is the last byte of the instruction (R72, R105). -/
def target (off : Byte) (s : State) : Word := s.relBase (s.pc - 1) + sext16 off

/-- `Oper8(m)` (R106). -/
def oper8 : Src8 → State → Byte
  | .imm v, _ => v
  | .mem m, s => s.read8 (ea m s)

/-- `Oper16(m)` (R107). -/
def oper16 : Src16 → State → Word
  | .imm v, _ => v
  | .mem m, s => s.read16 (ea m s)

/-- `Oper8` of the operand of a single-operand instruction: an accumulator or a memory byte (R80, R106). -/
def readTarget : Target8 → State → Byte
  | .acc a, s => s.acc a
  | .mem m, s => s.read8 (ea m s)

/-- `SetOper8` of that operand (R108). -/
def writeTarget : Target8 → Byte → State → State
  | .acc a, v, s => s.setAcc a v
  | .mem m, v, s => s.write8 (ea m s) v

end Sys2Proof.Machine
end

