-- ==== Sys2Proof/Machine/Shared.lean ====
section
/-! DEFINITION. The shapes that instructions of several groups share: a 16-bit store, a 16-bit comparison, the emulation
trap. -/

namespace Sys2Proof.Machine

/-- A 16-bit store: N, Z of the value stored, V = 0 (R191, R211, R226; D22). -/
def store16 (m : MemOp) (v : Word) (s : State) : State := (s.write16 (ea m s) v).setNZ0 v

/-- A 16-bit comparison: the flags of the subtraction (R195, R198, R215). -/
def compare16 (p q : Word) (s : State) : State := s.setAlu (subAlu p q false)

/-- The emulation trap of IDIV, FDIV and every unrecognised code: the acknowledge phase with `Next_PC` as return address,
through `EMU_VECTOR_LOC` (R307, R308). -/
def emulationTrap (s : State) : State := s.interruptEntry s.pc Config.emuVectorLoc

end Sys2Proof.Machine
end

