-- ==== Sys2Proof/Machine/Ccr.lean ====
section
/-! DEFINITION. The CCR operations group (`42_ccr_operations.md` R180 to R185). One definition per instruction, over the
shared ones. -/

namespace Sys2Proof.Machine

/-! ## The meanings -/

/-- CLC (R180). -/
def execClc (s : State) : Result := .next (s.setFlag .C false)

/-- SEC (R181). -/
def execSec (s : State) : Result := .next (s.setFlag .C true)

/-- CLV (R182). -/
def execClv (s : State) : Result := .next (s.setFlag .V false)

/-- SEV (R183). -/
def execSev (s : State) : Result := .next (s.setFlag .V true)

/-- TAP (R184). -/
def execTap (s : State) : Result := .next ({ s with ccr := s.a })

/-- TPA (R185). -/
def execTpa (s : State) : Result := .next ({ s with a := s.ccr })

end Sys2Proof.Machine
end

