-- ==== Sys2Proof/Machine/Control.lean ====
section
/-! DEFINITION. The processor control group (`47_processor_control.md` R275 to R280) and the verdict "unrecognised"
(`60_exceptions.md` R308). One definition per instruction, over the shared ones. -/

namespace Sys2Proof.Machine

/-- WAI: the frame is stacked with `Next_PC` as return address, CCR[I] is left, the machine waits (R278, R316; D26). -/
def waitForInterrupt (s : State) : State := { s.pushFrame s.pc with run := .waiting }

/-- STOP: with CCR[S] clear the machine stops, else nothing (R280, R317; C13). -/
def stop (s : State) : State := if s.flag .S then s else { s with run := .stopped }

/-! ## The meanings -/

/-- CLI (R275). -/
def execCli (s : State) : Result := .next (s.setFlag .I false)

/-- SEI (R276). -/
def execSei (s : State) : Result := .next (s.setFlag .I true)

/-- SWI (R277). -/
def execSwi (s : State) : Result := .next (s.interruptEntry s.pc Config.swiVectorLoc)

/-- WAI (R278). -/
def execWai (s : State) : Result := .next (waitForInterrupt s)

/-- RTI (R279). -/
def execRti (s : State) : Result := .next (s.returnFromInterrupt)

/-- STOP (R280). -/
def execStop (s : State) : Result := .next (stop s)

/-- UNRECOGNISED (R308). -/
def execUnrecognised (s : State) : Result := .next (emulationTrap s)

end Sys2Proof.Machine
end

