-- ==== Sys2Proof/Machine/Double.lean ====
section
/-! DEFINITION. The 16-bit accumulator group (`43_16bit_accumulator.md` R190 to R204). One definition per instruction, over
the shared ones. -/

namespace Sys2Proof.Machine

/-- `LD d oper`: the value, N, Z over 16 bits, V = 0 (R190). -/
def load16 (d : Dbl) (o : Src16) (s : State) : State := (s.setDbl d (oper16 o s)).setNZ0 (oper16 o s)

/-- XGDE: D and E swap; N and Z of the value `XGDE_FLAGS_FROM` names, V = 0 (R192; D13; entry 14). -/
def exchangeDE (s : State) : State :=
  ((s.setDbl .D (s.dbl .E)).setDbl .E (s.dbl .D)).setNZ0 (xgdeFlags s.cfg.xgdeFlagsFrom (s.dbl .E) (s.dbl .D))

/-- A 16-bit addition into a double accumulator: N, Z, V, C (R193, R196). -/
def add16To (d : Dbl) (q : Word) (s : State) : State :=
  let r := addAlu (s.dbl d) q false
  (s.setDbl d r.value).setAlu r

/-- A 16-bit subtraction from a double accumulator: N, Z, V, C (R194, R197). -/
def sub16From (d : Dbl) (q : Word) (s : State) : State :=
  let r := subAlu (s.dbl d) q false
  (s.setDbl d r.value).setAlu r

/-- MED: D is the low 16 bits of the product, E is kept, C is the free value `MED_C` (R199; D12; entries 13, 27). -/
def multiply16 (s : State) : State :=
  (s.setDbl .D (s.dbl .D * s.dbl .E)).setFlag .C (Config.medC s.draws (s.dbl .D) (s.dbl .E))

/-- A 16-bit shift in place: N, Z, V, C (R200 to R202). -/
def shift16 (d : Dbl) (f : Word → Alu 16) (s : State) : State :=
  (s.setDbl d (f (s.dbl d)).value).setAlu (f (s.dbl d))

/-! ## The meanings -/

/-- LDD (R190). -/
def execLdd (o : Src16) (s : State) : Result := .next (load16 .D o s)

/-- LDE (R190). -/
def execLde (o : Src16) (s : State) : Result := .next (load16 .E o s)

/-- STD (R191). -/
def execStd (m : MemOp) (s : State) : Result := .next (store16 m (s.dbl .D) s)

/-- STE (R191). -/
def execSte (m : MemOp) (s : State) : Result := .next (store16 m (s.dbl .E) s)

/-- XGDE (R192). -/
def execXgde (s : State) : Result := .next (exchangeDE s)

/-- ADDD (R193). -/
def execAddd (o : Src16) (s : State) : Result := .next ((add16To .D (oper16 o s) s).freeHalf (.addDbl .D))

/-- ADDE (R193). -/
def execAdde (o : Src16) (s : State) : Result := .next ((add16To .E (oper16 o s) s).freeHalf (.addDbl .E))

/-- SUBD (R194). -/
def execSubd (o : Src16) (s : State) : Result := .next ((sub16From .D (oper16 o s) s).freeHalf (.subDbl .D))

/-- SUBE (R194). -/
def execSube (o : Src16) (s : State) : Result := .next ((sub16From .E (oper16 o s) s).freeHalf (.subDbl .E))

/-- CMPD (R195). -/
def execCmpd (o : Src16) (s : State) : Result := .next ((compare16 (s.dbl .D) (oper16 o s) s).freeHalf (.cmpDbl .D))

/-- CMPE (R195). -/
def execCmpe (o : Src16) (s : State) : Result := .next ((compare16 (s.dbl .E) (oper16 o s) s).freeHalf (.cmpDbl .E))

/-- AED (R196). -/
def execAed (s : State) : Result := .next ((add16To .D (s.dbl .E) s).freeHalf .aed)

/-- SED (R197). -/
def execSed (s : State) : Result := .next ((sub16From .D (s.dbl .E) s).freeHalf .sed)

/-- CED (R198). -/
def execCed (s : State) : Result := .next ((compare16 (s.dbl .D) (s.dbl .E) s).freeHalf .ced)

/-- MED (R199). -/
def execMed (s : State) : Result := .next ((multiply16 s).freeHalf .med)

/-- LSRD (R200). -/
def execLsrd (s : State) : Result := .next ((shift16 .D lsrAlu s).freeHalf (.lsrDbl .D))

/-- LSRE (R200). -/
def execLsre (s : State) : Result := .next ((shift16 .E lsrAlu s).freeHalf (.lsrDbl .E))

/-- ASRD (R201). -/
def execAsrd (s : State) : Result := .next ((shift16 .D asrAlu s).freeHalf (.asrDbl .D))

/-- ASRE (R201). -/
def execAsre (s : State) : Result := .next ((shift16 .E asrAlu s).freeHalf (.asrDbl .E))

/-- ASLD (R202). -/
def execAsld (s : State) : Result := .next ((shift16 .D aslAlu s).freeHalf (.aslDbl .D))

/-- ASLE (R202). -/
def execAsle (s : State) : Result := .next ((shift16 .E aslAlu s).freeHalf (.aslDbl .E))

/-- IDIV (R203). -/
def execIdiv (s : State) : Result := .next (emulationTrap s)

/-- FDIV (R204). -/
def execFdiv (s : State) : Result := .next (emulationTrap s)

end Sys2Proof.Machine
end

