-- ==== Sys2Proof/Machine/Eight.lean ====
section
/-! DEFINITION. The 8-bit operations group but for the instructions that work on an operand in place (`41_8bit_operations.md`
R130 to R146, R160 to R169). One definition per instruction, over the shared ones. -/

namespace Sys2Proof.Machine

/-- `LDA a oper`: the value, N, Z, V = 0 (R130). -/
def load8 (a : Acc) (o : Src8) (s : State) : State := (s.setAcc a (oper8 o s)).setNZ0 (oper8 o s)

/-- `STA a oper`: the byte is written without being read; N, Z of the value stored, V = 0 (R131; D22, D23). -/
def store8 (a : Acc) (m : MemOp) (s : State) : State := (s.write8 (ea m s) (s.acc a)).setNZ0 (s.acc a)

/-- A transfer between the accumulators of a pair: N, Z, V = 0 (R132 to R135). -/
def transfer8 (dst src : Acc) (s : State) : State := (s.setAcc dst (s.acc src)).setNZ0 (s.acc src)

/-- `PUL a`: no flag (R137). -/
def pull8To (a : Acc) (s : State) : State := (s.dropped 1).setAcc a (s.pulled 1)

/-- An addition into an accumulator: N, Z, V, C, and H, the carry from bit 3, if the instruction is one of `H_WRITERS` (R138,
R139, R160, R161; D10; entry 9). -/
def add8To (w : Config.HWriter) (a : Acc) (q : Byte) (cin : Bool) (s : State) : State :=
  let r := addAlu (s.acc a) q cin
  ((s.setAcc a r.value).setAlu r).setHalf w r.half

/-- A subtraction from an accumulator: N, Z, V, C (R140, R141, R162, R163). -/
def sub8From (a : Acc) (q : Byte) (bin : Bool) (s : State) : State :=
  let r := subAlu (s.acc a) q bin
  (s.setAcc a r.value).setAlu r

/-- A comparison with an accumulator: the flags of the subtraction (R142, R164, R165). -/
def compare8 (a : Acc) (q : Byte) (s : State) : State := s.setAlu (subAlu (s.acc a) q false)

/-- A logic result into an accumulator: N, Z, V = 0 (R144 to R146). -/
def logic8To (a : Acc) (r : Byte) (s : State) : State := (s.setAcc a r).setNZ0 r

/-- The low half sign-extended into a double accumulator: N, Z of the 16 bits, V = 0, C = 0 (R166, R167). -/
def signExtend (d : Dbl) (v : Byte) (s : State) : State := (s.setDbl d (sext16 v)).setNZVC (sext16 v) false false

/-- MUL: D is the product, C is `MUL_C`, N, Z and V are left (R168; D12; entry 12). -/
def multiply8 (s : State) : State :=
  (s.setDbl .D (mulProduct s.a s.b)).setFlag .C (mulCarry s.cfg.mulC s.a s.b)

/-- DAA: `DAA_FN` of A, C and H; N and Z of its result, C its carry, V the free value `DAA_V` (R169; D11; entries 10,
11, 27). -/
def decimalAdjust (s : State) : State :=
  let r := daaFn s.cfg.daaFn s.draws s.a (s.flag .C) (s.flag .H)
  let v := Config.daaV s.draws s.a (s.flag .C) (s.flag .H)
  (s.setAcc .A r.1).setNZVC r.1 v r.2

/-! ## The meanings -/

/-- LDAA (R130). -/
def execLdaa (o : Src8) (s : State) : Result := .next (load8 .A o s)

/-- LDAB (R130). -/
def execLdab (o : Src8) (s : State) : Result := .next (load8 .B o s)

/-- LDAH (R130). -/
def execLdah (o : Src8) (s : State) : Result := .next (load8 .H o s)

/-- LDAL (R130). -/
def execLdal (o : Src8) (s : State) : Result := .next (load8 .L o s)

/-- STAA (R131). -/
def execStaa (m : MemOp) (s : State) : Result := .next (store8 .A m s)

/-- STAB (R131). -/
def execStab (m : MemOp) (s : State) : Result := .next (store8 .B m s)

/-- STAH (R131). -/
def execStah (m : MemOp) (s : State) : Result := .next (store8 .H m s)

/-- STAL (R131). -/
def execStal (m : MemOp) (s : State) : Result := .next (store8 .L m s)

/-- TAB (R132). -/
def execTab (s : State) : Result := .next (transfer8 .B .A s)

/-- TBA (R133). -/
def execTba (s : State) : Result := .next (transfer8 .A .B s)

/-- THL (R134). -/
def execThl (s : State) : Result := .next (transfer8 .L .H s)

/-- TLH (R135). -/
def execTlh (s : State) : Result := .next (transfer8 .H .L s)

/-- PSHA (R136). -/
def execPsha (s : State) : Result := .next (s.push8 (s.acc .A))

/-- PSHB (R136). -/
def execPshb (s : State) : Result := .next (s.push8 (s.acc .B))

/-- PSHH (R136). -/
def execPshh (s : State) : Result := .next (s.push8 (s.acc .H))

/-- PSHL (R136). -/
def execPshl (s : State) : Result := .next (s.push8 (s.acc .L))

/-- PULA (R137). -/
def execPula (s : State) : Result := .next (pull8To .A s)

/-- PULB (R137). -/
def execPulb (s : State) : Result := .next (pull8To .B s)

/-- PULH (R137). -/
def execPulh (s : State) : Result := .next (pull8To .H s)

/-- PULL (R137). -/
def execPull (s : State) : Result := .next (pull8To .L s)

/-- ADDA (R138). -/
def execAdda (o : Src8) (s : State) : Result := .next (add8To (.add .A) .A (oper8 o s) false s)

/-- ADDB (R138). -/
def execAddb (o : Src8) (s : State) : Result := .next (add8To (.add .B) .B (oper8 o s) false s)

/-- ADDH (R138). -/
def execAddh (o : Src8) (s : State) : Result := .next (add8To (.add .H) .H (oper8 o s) false s)

/-- ADDL (R138). -/
def execAddl (o : Src8) (s : State) : Result := .next (add8To (.add .L) .L (oper8 o s) false s)

/-- ADCA (R139). -/
def execAdca (o : Src8) (s : State) : Result := .next (add8To (.adc .A) .A (oper8 o s) (s.flag .C) s)

/-- ADCB (R139). -/
def execAdcb (o : Src8) (s : State) : Result := .next (add8To (.adc .B) .B (oper8 o s) (s.flag .C) s)

/-- ADCH (R139). -/
def execAdch (o : Src8) (s : State) : Result := .next (add8To (.adc .H) .H (oper8 o s) (s.flag .C) s)

/-- ADCL (R139). -/
def execAdcl (o : Src8) (s : State) : Result := .next (add8To (.adc .L) .L (oper8 o s) (s.flag .C) s)

/-- SUBA (R140). -/
def execSuba (o : Src8) (s : State) : Result := .next ((sub8From .A (oper8 o s) false s).freeHalf (.sub .A))

/-- SUBB (R140). -/
def execSubb (o : Src8) (s : State) : Result := .next ((sub8From .B (oper8 o s) false s).freeHalf (.sub .B))

/-- SUBH (R140). -/
def execSubh (o : Src8) (s : State) : Result := .next ((sub8From .H (oper8 o s) false s).freeHalf (.sub .H))

/-- SUBL (R140). -/
def execSubl (o : Src8) (s : State) : Result := .next ((sub8From .L (oper8 o s) false s).freeHalf (.sub .L))

/-- SBCA (R141). -/
def execSbca (o : Src8) (s : State) : Result := .next ((sub8From .A (oper8 o s) (s.flag .C) s).freeHalf (.sbc .A))

/-- SBCB (R141). -/
def execSbcb (o : Src8) (s : State) : Result := .next ((sub8From .B (oper8 o s) (s.flag .C) s).freeHalf (.sbc .B))

/-- SBCH (R141). -/
def execSbch (o : Src8) (s : State) : Result := .next ((sub8From .H (oper8 o s) (s.flag .C) s).freeHalf (.sbc .H))

/-- SBCL (R141). -/
def execSbcl (o : Src8) (s : State) : Result := .next ((sub8From .L (oper8 o s) (s.flag .C) s).freeHalf (.sbc .L))

/-- CMPA (R142). -/
def execCmpa (o : Src8) (s : State) : Result := .next ((compare8 .A (oper8 o s) s).freeHalf (.cmp .A))

/-- CMPB (R142). -/
def execCmpb (o : Src8) (s : State) : Result := .next ((compare8 .B (oper8 o s) s).freeHalf (.cmp .B))

/-- CMPH (R142). -/
def execCmph (o : Src8) (s : State) : Result := .next ((compare8 .H (oper8 o s) s).freeHalf (.cmp .H))

/-- CMPL (R142). -/
def execCmpl (o : Src8) (s : State) : Result := .next ((compare8 .L (oper8 o s) s).freeHalf (.cmp .L))

/-- BITA (R143). -/
def execBita (o : Src8) (s : State) : Result := .next ((s.setNZ0 (s.acc .A &&& oper8 o s)).freeHalf (.bit .A))

/-- BITB (R143). -/
def execBitb (o : Src8) (s : State) : Result := .next ((s.setNZ0 (s.acc .B &&& oper8 o s)).freeHalf (.bit .B))

/-- BITH (R143). -/
def execBith (o : Src8) (s : State) : Result := .next ((s.setNZ0 (s.acc .H &&& oper8 o s)).freeHalf (.bit .H))

/-- BITL (R143). -/
def execBitl (o : Src8) (s : State) : Result := .next ((s.setNZ0 (s.acc .L &&& oper8 o s)).freeHalf (.bit .L))

/-- ANDA (R144). -/
def execAnda (o : Src8) (s : State) : Result := .next ((logic8To .A (s.acc .A &&& oper8 o s) s).freeHalf (.and .A))

/-- ANDB (R144). -/
def execAndb (o : Src8) (s : State) : Result := .next ((logic8To .B (s.acc .B &&& oper8 o s) s).freeHalf (.and .B))

/-- ANDH (R144). -/
def execAndh (o : Src8) (s : State) : Result := .next ((logic8To .H (s.acc .H &&& oper8 o s) s).freeHalf (.and .H))

/-- ANDL (R144). -/
def execAndl (o : Src8) (s : State) : Result := .next ((logic8To .L (s.acc .L &&& oper8 o s) s).freeHalf (.and .L))

/-- ORAA (R145). -/
def execOraa (o : Src8) (s : State) : Result := .next ((logic8To .A (s.acc .A ||| oper8 o s) s).freeHalf (.ora .A))

/-- ORAB (R145). -/
def execOrab (o : Src8) (s : State) : Result := .next ((logic8To .B (s.acc .B ||| oper8 o s) s).freeHalf (.ora .B))

/-- ORAH (R145). -/
def execOrah (o : Src8) (s : State) : Result := .next ((logic8To .H (s.acc .H ||| oper8 o s) s).freeHalf (.ora .H))

/-- ORAL (R145). -/
def execOral (o : Src8) (s : State) : Result := .next ((logic8To .L (s.acc .L ||| oper8 o s) s).freeHalf (.ora .L))

/-- EORA (R146). -/
def execEora (o : Src8) (s : State) : Result := .next ((logic8To .A (s.acc .A ^^^ oper8 o s) s).freeHalf (.eor .A))

/-- EORB (R146). -/
def execEorb (o : Src8) (s : State) : Result := .next ((logic8To .B (s.acc .B ^^^ oper8 o s) s).freeHalf (.eor .B))

/-- EORH (R146). -/
def execEorh (o : Src8) (s : State) : Result := .next ((logic8To .H (s.acc .H ^^^ oper8 o s) s).freeHalf (.eor .H))

/-- EORL (R146). -/
def execEorl (o : Src8) (s : State) : Result := .next ((logic8To .L (s.acc .L ^^^ oper8 o s) s).freeHalf (.eor .L))

/-- ABA (R160). -/
def execAba (s : State) : Result := .next (add8To .aba .A s.b false s)

/-- ALH (R161). -/
def execAlh (s : State) : Result := .next (add8To .alh .H s.l false s)

/-- SBA (R162). -/
def execSba (s : State) : Result := .next ((sub8From .A s.b false s).freeHalf .sba)

/-- SLH (R163). -/
def execSlh (s : State) : Result := .next ((sub8From .H s.l false s).freeHalf .slh)

/-- CBA (R164). -/
def execCba (s : State) : Result := .next ((compare8 .A s.b s).freeHalf .cba)

/-- CLH (R165). -/
def execClh (s : State) : Result := .next ((compare8 .H s.l s).freeHalf .clh)

/-- SXTB (R166). -/
def execSxtb (s : State) : Result := .next ((signExtend .D s.b s).freeHalf .sxtb)

/-- SXTL (R167). -/
def execSxtl (s : State) : Result := .next ((signExtend .E s.l s).freeHalf .sxtl)

/-- MUL (R168). -/
def execMul (s : State) : Result := .next ((multiply8 s).freeHalf .mul)

/-- DAA (R169). -/
def execDaa (s : State) : Result := .next ((decimalAdjust s).freeHalf .daa)

end Sys2Proof.Machine
end

