-- ==== Sys2Proof/Machine/Flow.lean ====
section
/-! DEFINITION. The control flow group (`46_control_flow.md` R239 to R264). PC already holds `Next_PC` (R100), so a branch not
taken needs no action. One definition per instruction, over the shared ones. -/

namespace Sys2Proof.Machine

/-- JSR and BSR: `Next_PC` is pushed, then PC takes the target (R242, R244). -/
def call (t : Word) (s : State) : State := { s.push16 s.pc with pc := t }

/-- RTS: PC is pulled (R243). -/
def returnFromCall (s : State) : State := { s with pc := s.pulled16 1, sp := s.sp + 2 }

/-- A branch: PC takes the target if the condition holds (R246). -/
def branchIf (cond : Bool) (off : Byte) (s : State) : State := if cond then { s with pc := target off s } else s

/-! ## The meanings -/

/-- NOP (R240). -/
def execNop (s : State) : Result := .next s

/-- JMP (R241). -/
def execJmp (m : MemOp) (s : State) : Result := .next ({ s with pc := ea m s })

/-- JSR (R242). -/
def execJsr (m : MemOp) (s : State) : Result := .next (call (ea m s) s)

/-- RTS (R243). -/
def execRts (s : State) : Result := .next (returnFromCall s)

/-- BSR (R244). -/
def execBsr (off : Byte) (s : State) : Result := .next (call (target off s) s)

/-- BRA (R245). -/
def execBra (off : Byte) (s : State) : Result := .next (branchIf true off s)

/-- BRSET (R247). -/
def execBrset (m : MemOp) (mask : Byte) (off : Byte) (s : State) : Result :=
  .next (branchIf (decide (~~~(s.read8 (ea m s)) &&& mask = 0)) off s)

/-- BRCLR (R248). -/
def execBrclr (m : MemOp) (mask : Byte) (off : Byte) (s : State) : Result :=
  .next (branchIf (decide (s.read8 (ea m s) &&& mask = 0)) off s)

/-- BMI (R249). -/
def execBmi (off : Byte) (s : State) : Result := .next (branchIf (s.flag .N) off s)

/-- BPL (R250). -/
def execBpl (off : Byte) (s : State) : Result := .next (branchIf (!s.flag .N) off s)

/-- BEQ (R251). -/
def execBeq (off : Byte) (s : State) : Result := .next (branchIf (s.flag .Z) off s)

/-- BNE (R252). -/
def execBne (off : Byte) (s : State) : Result := .next (branchIf (!s.flag .Z) off s)

/-- BCS (R253). -/
def execBcs (off : Byte) (s : State) : Result := .next (branchIf (s.flag .C) off s)

/-- BCC (R254). -/
def execBcc (off : Byte) (s : State) : Result := .next (branchIf (!s.flag .C) off s)

/-- BVS (R255). -/
def execBvs (off : Byte) (s : State) : Result := .next (branchIf (s.flag .V) off s)

/-- BVC (R256). -/
def execBvc (off : Byte) (s : State) : Result := .next (branchIf (!s.flag .V) off s)

/-- BGT (R257). -/
def execBgt (off : Byte) (s : State) : Result :=
  .next (branchIf (!(s.flag .Z || (s.flag .N ^^ s.flag .V))) off s)

/-- BLT (R258). -/
def execBlt (off : Byte) (s : State) : Result := .next (branchIf (s.flag .N ^^ s.flag .V) off s)

/-- BGE (R259). -/
def execBge (off : Byte) (s : State) : Result := .next (branchIf (!(s.flag .N ^^ s.flag .V)) off s)

/-- BLE (R260). -/
def execBle (off : Byte) (s : State) : Result :=
  .next (branchIf (s.flag .Z || (s.flag .N ^^ s.flag .V)) off s)

/-- BHI (R261). -/
def execBhi (off : Byte) (s : State) : Result := .next (branchIf (!(s.flag .C || s.flag .Z)) off s)

/-- BLO (R262). -/
def execBlo (off : Byte) (s : State) : Result := .next (branchIf (s.flag .C) off s)

/-- BHS (R263). -/
def execBhs (off : Byte) (s : State) : Result := .next (branchIf (!s.flag .C) off s)

/-- BLS (R264). -/
def execBls (off : Byte) (s : State) : Result := .next (branchIf (s.flag .C || s.flag .Z) off s)

end Sys2Proof.Machine
end

