-- ==== Sys2Proof/Machine/Modify.lean ====
section
/-! DEFINITION. The single-operand instructions on an accumulator or a memory byte, and BSET and BCLR (`41_8bit_operations.md`
R147 to R159). One definition per instruction, over the shared ones. -/

namespace Sys2Proof.Machine

/-- The columns `N Z V -` from a computed result (R147, R148). -/
def State.setNZVof (s : State) (r : Alu 8) : State := s.setNZV r.value r.overflow

/-- Read, compute, write in place, then the flags (R147 to R150, R155 to R159). -/
def modify8 (t : Target8) (f : Byte → Alu 8) (put : State → Alu 8 → State) (s : State) : State :=
  let r := f (readTarget t s)
  put (writeTarget t r.value s) r

/-- CLR: zero is written without a read; N = 0, Z = 1, V = 0, C = 0 (R151; D23). -/
def clear8 (t : Target8) (s : State) : State := (writeTarget t clrAlu.value s).setAlu clrAlu

/-- TST: N and Z of the operand, V = 0, C = 0; nothing is written back (R154). -/
def test8 (t : Target8) (s : State) : State := s.setAlu (tstAlu (readTarget t s))

/-- BSET and BCLR: the byte is read, changed and written back; N, Z of the value written, V = 0 (R152, R153; D22). -/
def changeBits (m : MemOp) (f : Byte → Byte) (s : State) : State :=
  (s.write8 (ea m s) (f (s.read8 (ea m s)))).setNZ0 (f (s.read8 (ea m s)))

/-! ## The meanings -/

/-- INC (R147). -/
def execInc (m : MemOp) (s : State) : Result := .next ((modify8 (.mem m) incAlu State.setNZVof s).freeHalf (.inc none))

/-- INCA (R147). -/
def execInca (s : State) : Result := .next ((modify8 (.acc .A) incAlu State.setNZVof s).freeHalf (.inc (some .A)))

/-- INCB (R147). -/
def execIncb (s : State) : Result := .next ((modify8 (.acc .B) incAlu State.setNZVof s).freeHalf (.inc (some .B)))

/-- INCH (R147). -/
def execInch (s : State) : Result := .next ((modify8 (.acc .H) incAlu State.setNZVof s).freeHalf (.inc (some .H)))

/-- INCL (R147). -/
def execIncl (s : State) : Result := .next ((modify8 (.acc .L) incAlu State.setNZVof s).freeHalf (.inc (some .L)))

/-- DEC (R148). -/
def execDec (m : MemOp) (s : State) : Result := .next ((modify8 (.mem m) decAlu State.setNZVof s).freeHalf (.dec none))

/-- DECA (R148). -/
def execDeca (s : State) : Result := .next ((modify8 (.acc .A) decAlu State.setNZVof s).freeHalf (.dec (some .A)))

/-- DECB (R148). -/
def execDecb (s : State) : Result := .next ((modify8 (.acc .B) decAlu State.setNZVof s).freeHalf (.dec (some .B)))

/-- DECH (R148). -/
def execDech (s : State) : Result := .next ((modify8 (.acc .H) decAlu State.setNZVof s).freeHalf (.dec (some .H)))

/-- DECL (R148). -/
def execDecl (s : State) : Result := .next ((modify8 (.acc .L) decAlu State.setNZVof s).freeHalf (.dec (some .L)))

/-- NEG (R149). -/
def execNeg (m : MemOp) (s : State) : Result := .next ((modify8 (.mem m) negAlu State.setAlu s).freeHalf (.neg none))

/-- NEGA (R149). -/
def execNega (s : State) : Result := .next ((modify8 (.acc .A) negAlu State.setAlu s).freeHalf (.neg (some .A)))

/-- NEGB (R149). -/
def execNegb (s : State) : Result := .next ((modify8 (.acc .B) negAlu State.setAlu s).freeHalf (.neg (some .B)))

/-- NEGH (R149). -/
def execNegh (s : State) : Result := .next ((modify8 (.acc .H) negAlu State.setAlu s).freeHalf (.neg (some .H)))

/-- NEGL (R149). -/
def execNegl (s : State) : Result := .next ((modify8 (.acc .L) negAlu State.setAlu s).freeHalf (.neg (some .L)))

/-- COM (R150). -/
def execCom (m : MemOp) (s : State) : Result := .next ((modify8 (.mem m) comAlu State.setAlu s).freeHalf (.com none))

/-- COMA (R150). -/
def execComa (s : State) : Result := .next ((modify8 (.acc .A) comAlu State.setAlu s).freeHalf (.com (some .A)))

/-- COMB (R150). -/
def execComb (s : State) : Result := .next ((modify8 (.acc .B) comAlu State.setAlu s).freeHalf (.com (some .B)))

/-- COMH (R150). -/
def execComh (s : State) : Result := .next ((modify8 (.acc .H) comAlu State.setAlu s).freeHalf (.com (some .H)))

/-- COML (R150). -/
def execComl (s : State) : Result := .next ((modify8 (.acc .L) comAlu State.setAlu s).freeHalf (.com (some .L)))

/-- CLR (R151). -/
def execClr (m : MemOp) (s : State) : Result := .next ((clear8 (.mem m) s).freeHalf (.clr none))

/-- CLRA (R151). -/
def execClra (s : State) : Result := .next ((clear8 (.acc .A) s).freeHalf (.clr (some .A)))

/-- CLRB (R151). -/
def execClrb (s : State) : Result := .next ((clear8 (.acc .B) s).freeHalf (.clr (some .B)))

/-- CLRH (R151). -/
def execClrh (s : State) : Result := .next ((clear8 (.acc .H) s).freeHalf (.clr (some .H)))

/-- CLRL (R151). -/
def execClrl (s : State) : Result := .next ((clear8 (.acc .L) s).freeHalf (.clr (some .L)))

/-- BSET (R152). -/
def execBset (m : MemOp) (mask : Byte) (s : State) : Result :=
  .next ((changeBits m (fun v => v ||| mask) s).freeHalf .bset)

/-- BCLR (R153). -/
def execBclr (m : MemOp) (mask : Byte) (s : State) : Result :=
  .next ((changeBits m (fun v => v &&& ~~~mask) s).freeHalf .bclr)

/-- TST (R154). -/
def execTst (m : MemOp) (s : State) : Result := .next ((test8 (.mem m) s).freeHalf (.tst none))

/-- TSTA (R154). -/
def execTsta (s : State) : Result := .next ((test8 (.acc .A) s).freeHalf (.tst (some .A)))

/-- TSTB (R154). -/
def execTstb (s : State) : Result := .next ((test8 (.acc .B) s).freeHalf (.tst (some .B)))

/-- TSTH (R154). -/
def execTsth (s : State) : Result := .next ((test8 (.acc .H) s).freeHalf (.tst (some .H)))

/-- TSTL (R154). -/
def execTstl (s : State) : Result := .next ((test8 (.acc .L) s).freeHalf (.tst (some .L)))

/-- LSR (R155). -/
def execLsr (m : MemOp) (s : State) : Result := .next ((modify8 (.mem m) lsrAlu State.setAlu s).freeHalf (.lsr none))

/-- LSRA (R155). -/
def execLsra (s : State) : Result := .next ((modify8 (.acc .A) lsrAlu State.setAlu s).freeHalf (.lsr (some .A)))

/-- LSRB (R155). -/
def execLsrb (s : State) : Result := .next ((modify8 (.acc .B) lsrAlu State.setAlu s).freeHalf (.lsr (some .B)))

/-- LSRH (R155). -/
def execLsrh (s : State) : Result := .next ((modify8 (.acc .H) lsrAlu State.setAlu s).freeHalf (.lsr (some .H)))

/-- LSRL (R155). -/
def execLsrl (s : State) : Result := .next ((modify8 (.acc .L) lsrAlu State.setAlu s).freeHalf (.lsr (some .L)))

/-- ASL (R156). -/
def execAsl (m : MemOp) (s : State) : Result := .next ((modify8 (.mem m) aslAlu State.setAlu s).freeHalf (.asl none))

/-- ASLA (R156). -/
def execAsla (s : State) : Result := .next ((modify8 (.acc .A) aslAlu State.setAlu s).freeHalf (.asl (some .A)))

/-- ASLB (R156). -/
def execAslb (s : State) : Result := .next ((modify8 (.acc .B) aslAlu State.setAlu s).freeHalf (.asl (some .B)))

/-- ASLH (R156). -/
def execAslh (s : State) : Result := .next ((modify8 (.acc .H) aslAlu State.setAlu s).freeHalf (.asl (some .H)))

/-- ASLL (R156). -/
def execAsll (s : State) : Result := .next ((modify8 (.acc .L) aslAlu State.setAlu s).freeHalf (.asl (some .L)))

/-- ASR (R157). -/
def execAsr (m : MemOp) (s : State) : Result := .next ((modify8 (.mem m) asrAlu State.setAlu s).freeHalf (.asr none))

/-- ASRA (R157). -/
def execAsra (s : State) : Result := .next ((modify8 (.acc .A) asrAlu State.setAlu s).freeHalf (.asr (some .A)))

/-- ASRB (R157). -/
def execAsrb (s : State) : Result := .next ((modify8 (.acc .B) asrAlu State.setAlu s).freeHalf (.asr (some .B)))

/-- ASRH (R157). -/
def execAsrh (s : State) : Result := .next ((modify8 (.acc .H) asrAlu State.setAlu s).freeHalf (.asr (some .H)))

/-- ASRL (R157). -/
def execAsrl (s : State) : Result := .next ((modify8 (.acc .L) asrAlu State.setAlu s).freeHalf (.asr (some .L)))

/-- ROR (R158). -/
def execRor (m : MemOp) (s : State) : Result :=
  .next ((modify8 (.mem m) (fun v => rorAlu v (s.flag .C)) State.setAlu s).freeHalf (.ror none))

/-- RORA (R158). -/
def execRora (s : State) : Result :=
  .next ((modify8 (.acc .A) (fun v => rorAlu v (s.flag .C)) State.setAlu s).freeHalf (.ror (some .A)))

/-- RORB (R158). -/
def execRorb (s : State) : Result :=
  .next ((modify8 (.acc .B) (fun v => rorAlu v (s.flag .C)) State.setAlu s).freeHalf (.ror (some .B)))

/-- RORH (R158). -/
def execRorh (s : State) : Result :=
  .next ((modify8 (.acc .H) (fun v => rorAlu v (s.flag .C)) State.setAlu s).freeHalf (.ror (some .H)))

/-- RORL (R158). -/
def execRorl (s : State) : Result :=
  .next ((modify8 (.acc .L) (fun v => rorAlu v (s.flag .C)) State.setAlu s).freeHalf (.ror (some .L)))

/-- ROL (R159). -/
def execRol (m : MemOp) (s : State) : Result :=
  .next ((modify8 (.mem m) (fun v => rolAlu v (s.flag .C)) State.setAlu s).freeHalf (.rol none))

/-- ROLA (R159). -/
def execRola (s : State) : Result :=
  .next ((modify8 (.acc .A) (fun v => rolAlu v (s.flag .C)) State.setAlu s).freeHalf (.rol (some .A)))

/-- ROLB (R159). -/
def execRolb (s : State) : Result :=
  .next ((modify8 (.acc .B) (fun v => rolAlu v (s.flag .C)) State.setAlu s).freeHalf (.rol (some .B)))

/-- ROLH (R159). -/
def execRolh (s : State) : Result :=
  .next ((modify8 (.acc .H) (fun v => rolAlu v (s.flag .C)) State.setAlu s).freeHalf (.rol (some .H)))

/-- ROLL (R159). -/
def execRoll (s : State) : Result :=
  .next ((modify8 (.acc .L) (fun v => rolAlu v (s.flag .C)) State.setAlu s).freeHalf (.rol (some .L)))

end Sys2Proof.Machine
end

