-- ==== Sys2Proof/Machine/Pointer.lean ====
section
/-! DEFINITION. The 16-bit pointers operations group (`44_pointer_operations.md` R210 to R219). One definition per
instruction, over the shared ones. -/

namespace Sys2Proof.Machine

/-- `LD x oper`: the address is formed from the old registers; N, Z over 16 bits, V = 0 (R210, R120). -/
def loadIndex (r : IReg) (o : Src16) (s : State) : State := (s.setIreg r (oper16 o s)).setNZ0 (oper16 o s)

/-- `PUL x`: no flag (R213). -/
def pullIndex (r : IReg) (s : State) : State := (s.dropped 2).setIreg r (s.pulled16 1)

/-- `XG d x`: no flag (R214). -/
def exchangeIndex (d : Dbl) (r : IReg) (s : State) : State := (s.setDbl d (s.ireg r)).setIreg r (s.dbl d)

/-- `IN x` and `DE x`: the new value, Z alone (R216, R217; C3). -/
def countIndex (r : IReg) (v : Word) (s : State) : State := (s.setIreg r v).setFlag .Z (decide (v = 0))

/-! ## The meanings -/

/-- LDX (R210). -/
def execLdx (o : Src16) (s : State) : Result := .next (loadIndex .X o s)

/-- LDY (R210). -/
def execLdy (o : Src16) (s : State) : Result := .next (loadIndex .Y o s)

/-- LDZ (R210). -/
def execLdz (o : Src16) (s : State) : Result := .next (loadIndex .Z o s)

/-- STX (R211). -/
def execStx (m : MemOp) (s : State) : Result := .next (store16 m (s.ireg .X) s)

/-- STY (R211). -/
def execSty (m : MemOp) (s : State) : Result := .next (store16 m (s.ireg .Y) s)

/-- STZ (R211). -/
def execStz (m : MemOp) (s : State) : Result := .next (store16 m (s.ireg .Z) s)

/-- PSHX (R212). -/
def execPshx (s : State) : Result := .next (s.push16 (s.ireg .X))

/-- PSHY (R212). -/
def execPshy (s : State) : Result := .next (s.push16 (s.ireg .Y))

/-- PSHZ (R212). -/
def execPshz (s : State) : Result := .next (s.push16 (s.ireg .Z))

/-- PULX (R213). -/
def execPulx (s : State) : Result := .next (pullIndex .X s)

/-- PULY (R213). -/
def execPuly (s : State) : Result := .next (pullIndex .Y s)

/-- PULZ (R213). -/
def execPulz (s : State) : Result := .next (pullIndex .Z s)

/-- XGDX (R214). -/
def execXgdx (s : State) : Result := .next (exchangeIndex .D .X s)

/-- XGDY (R214). -/
def execXgdy (s : State) : Result := .next (exchangeIndex .D .Y s)

/-- XGDZ (R214). -/
def execXgdz (s : State) : Result := .next (exchangeIndex .D .Z s)

/-- XGEX (R214). -/
def execXgex (s : State) : Result := .next (exchangeIndex .E .X s)

/-- XGEY (R214). -/
def execXgey (s : State) : Result := .next (exchangeIndex .E .Y s)

/-- XGEZ (R214). -/
def execXgez (s : State) : Result := .next (exchangeIndex .E .Z s)

/-- CPX (R215). -/
def execCpx (o : Src16) (s : State) : Result := .next ((compare16 (s.ireg .X) (oper16 o s) s).freeHalf (.cpIndex .X))

/-- CPY (R215). -/
def execCpy (o : Src16) (s : State) : Result := .next ((compare16 (s.ireg .Y) (oper16 o s) s).freeHalf (.cpIndex .Y))

/-- CPZ (R215). -/
def execCpz (o : Src16) (s : State) : Result := .next ((compare16 (s.ireg .Z) (oper16 o s) s).freeHalf (.cpIndex .Z))

/-- INX (R216). -/
def execInx (s : State) : Result := .next ((countIndex .X (s.ireg .X + 1) s).freeHalf (.inIndex .X))

/-- INY (R216). -/
def execIny (s : State) : Result := .next ((countIndex .Y (s.ireg .Y + 1) s).freeHalf (.inIndex .Y))

/-- INZ (R216). -/
def execInz (s : State) : Result := .next ((countIndex .Z (s.ireg .Z + 1) s).freeHalf (.inIndex .Z))

/-- DEX (R217). -/
def execDex (s : State) : Result := .next ((countIndex .X (s.ireg .X - 1) s).freeHalf (.deIndex .X))

/-- DEY (R217). -/
def execDey (s : State) : Result := .next ((countIndex .Y (s.ireg .Y - 1) s).freeHalf (.deIndex .Y))

/-- DEZ (R217). -/
def execDez (s : State) : Result := .next ((countIndex .Z (s.ireg .Z - 1) s).freeHalf (.deIndex .Z))

/-- ADDX (R218). -/
def execAddx (o : Src16) (s : State) : Result := .next (s.setIreg .X (s.ireg .X + oper16 o s))

/-- ADDY (R218). -/
def execAddy (o : Src16) (s : State) : Result := .next (s.setIreg .Y (s.ireg .Y + oper16 o s))

/-- ADDZ (R218). -/
def execAddz (o : Src16) (s : State) : Result := .next (s.setIreg .Z (s.ireg .Z + oper16 o s))

/-- ABX (R219). -/
def execAbx (s : State) : Result := .next (s.setIreg .X (s.ireg .X + zext16 s.b))

/-- ABY (R219). -/
def execAby (s : State) : Result := .next (s.setIreg .Y (s.ireg .Y + zext16 s.b))

/-- ABZ (R219). -/
def execAbz (s : State) : Result := .next (s.setIreg .Z (s.ireg .Z + zext16 s.b))

end Sys2Proof.Machine
end

