-- ==== Sys2Proof/Machine/StackPtr.lean ====
section
/-! DEFINITION. The stack pointer operations group (`45_stack_pointer.md` R225 to R230). One definition per instruction, over
the shared ones. -/

namespace Sys2Proof.Machine

/-- LDS: S takes the value as it is; N, Z over 16 bits, V = 0 (R225). -/
def loadStack (o : Src16) (s : State) : State := { s with sp := oper16 o s }.setNZ0 (oper16 o s)

/-! ## The meanings -/

/-- LDS (R225). -/
def execLds (o : Src16) (s : State) : Result := .next (loadStack o s)

/-- STS (R226). -/
def execSts (m : MemOp) (s : State) : Result := .next (store16 m s.sp s)

/-- TSX (R227). -/
def execTsx (s : State) : Result := .next (s.setIreg .X (s.sp + 1))

/-- TSY (R227). -/
def execTsy (s : State) : Result := .next (s.setIreg .Y (s.sp + 1))

/-- TSZ (R227). -/
def execTsz (s : State) : Result := .next (s.setIreg .Z (s.sp + 1))

/-- TXS (R228). -/
def execTxs (s : State) : Result := .next ({ s with sp := s.ireg .X - 1 })

/-- TYS (R228). -/
def execTys (s : State) : Result := .next ({ s with sp := s.ireg .Y - 1 })

/-- TZS (R228). -/
def execTzs (s : State) : Result := .next ({ s with sp := s.ireg .Z - 1 })

/-- INS (R229). -/
def execIns (s : State) : Result := .next ({ s with sp := s.sp + 1 })

/-- DES (R230). -/
def execDes (s : State) : Result := .next ({ s with sp := s.sp - 1 })

end Sys2Proof.Machine
end

