-- ==== Sys2Proof/Machine/Dispatch.lean ====
section
/-! DEFINITION. The dispatch: one arm for each constructor of `Instr`, one call of its meaning. -/

namespace Sys2Proof.Machine

def exec (i : Instr) (s : State) : Host.Outcome State Fault Refusal :=
  match i with
  | .ldaa o => Sys2Proof.Machine.execLdaa o s
  | .ldab o => Sys2Proof.Machine.execLdab o s
  | .ldah o => Sys2Proof.Machine.execLdah o s
  | .ldal o => Sys2Proof.Machine.execLdal o s
  | .staa m => Sys2Proof.Machine.execStaa m s
  | .stab m => Sys2Proof.Machine.execStab m s
  | .stah m => Sys2Proof.Machine.execStah m s
  | .stal m => Sys2Proof.Machine.execStal m s
  | .tab => Sys2Proof.Machine.execTab s
  | .tba => Sys2Proof.Machine.execTba s
  | .thl => Sys2Proof.Machine.execThl s
  | .tlh => Sys2Proof.Machine.execTlh s
  | .psha => Sys2Proof.Machine.execPsha s
  | .pshb => Sys2Proof.Machine.execPshb s
  | .pshh => Sys2Proof.Machine.execPshh s
  | .pshl => Sys2Proof.Machine.execPshl s
  | .pula => Sys2Proof.Machine.execPula s
  | .pulb => Sys2Proof.Machine.execPulb s
  | .pulh => Sys2Proof.Machine.execPulh s
  | .pull => Sys2Proof.Machine.execPull s
  | .adda o => Sys2Proof.Machine.execAdda o s
  | .addb o => Sys2Proof.Machine.execAddb o s
  | .addh o => Sys2Proof.Machine.execAddh o s
  | .addl o => Sys2Proof.Machine.execAddl o s
  | .adca o => Sys2Proof.Machine.execAdca o s
  | .adcb o => Sys2Proof.Machine.execAdcb o s
  | .adch o => Sys2Proof.Machine.execAdch o s
  | .adcl o => Sys2Proof.Machine.execAdcl o s
  | .suba o => Sys2Proof.Machine.execSuba o s
  | .subb o => Sys2Proof.Machine.execSubb o s
  | .subh o => Sys2Proof.Machine.execSubh o s
  | .subl o => Sys2Proof.Machine.execSubl o s
  | .sbca o => Sys2Proof.Machine.execSbca o s
  | .sbcb o => Sys2Proof.Machine.execSbcb o s
  | .sbch o => Sys2Proof.Machine.execSbch o s
  | .sbcl o => Sys2Proof.Machine.execSbcl o s
  | .cmpa o => Sys2Proof.Machine.execCmpa o s
  | .cmpb o => Sys2Proof.Machine.execCmpb o s
  | .cmph o => Sys2Proof.Machine.execCmph o s
  | .cmpl o => Sys2Proof.Machine.execCmpl o s
  | .bita o => Sys2Proof.Machine.execBita o s
  | .bitb o => Sys2Proof.Machine.execBitb o s
  | .bith o => Sys2Proof.Machine.execBith o s
  | .bitl o => Sys2Proof.Machine.execBitl o s
  | .anda o => Sys2Proof.Machine.execAnda o s
  | .andb o => Sys2Proof.Machine.execAndb o s
  | .andh o => Sys2Proof.Machine.execAndh o s
  | .andl o => Sys2Proof.Machine.execAndl o s
  | .oraa o => Sys2Proof.Machine.execOraa o s
  | .orab o => Sys2Proof.Machine.execOrab o s
  | .orah o => Sys2Proof.Machine.execOrah o s
  | .oral o => Sys2Proof.Machine.execOral o s
  | .eora o => Sys2Proof.Machine.execEora o s
  | .eorb o => Sys2Proof.Machine.execEorb o s
  | .eorh o => Sys2Proof.Machine.execEorh o s
  | .eorl o => Sys2Proof.Machine.execEorl o s
  | .inc m => Sys2Proof.Machine.execInc m s
  | .inca => Sys2Proof.Machine.execInca s
  | .incb => Sys2Proof.Machine.execIncb s
  | .inch => Sys2Proof.Machine.execInch s
  | .incl => Sys2Proof.Machine.execIncl s
  | .dec m => Sys2Proof.Machine.execDec m s
  | .deca => Sys2Proof.Machine.execDeca s
  | .decb => Sys2Proof.Machine.execDecb s
  | .dech => Sys2Proof.Machine.execDech s
  | .decl => Sys2Proof.Machine.execDecl s
  | .neg m => Sys2Proof.Machine.execNeg m s
  | .nega => Sys2Proof.Machine.execNega s
  | .negb => Sys2Proof.Machine.execNegb s
  | .negh => Sys2Proof.Machine.execNegh s
  | .negl => Sys2Proof.Machine.execNegl s
  | .com m => Sys2Proof.Machine.execCom m s
  | .coma => Sys2Proof.Machine.execComa s
  | .comb => Sys2Proof.Machine.execComb s
  | .comh => Sys2Proof.Machine.execComh s
  | .coml => Sys2Proof.Machine.execComl s
  | .clr m => Sys2Proof.Machine.execClr m s
  | .clra => Sys2Proof.Machine.execClra s
  | .clrb => Sys2Proof.Machine.execClrb s
  | .clrh => Sys2Proof.Machine.execClrh s
  | .clrl => Sys2Proof.Machine.execClrl s
  | .bset m mask => Sys2Proof.Machine.execBset m mask s
  | .bclr m mask => Sys2Proof.Machine.execBclr m mask s
  | .tst m => Sys2Proof.Machine.execTst m s
  | .tsta => Sys2Proof.Machine.execTsta s
  | .tstb => Sys2Proof.Machine.execTstb s
  | .tsth => Sys2Proof.Machine.execTsth s
  | .tstl => Sys2Proof.Machine.execTstl s
  | .lsr m => Sys2Proof.Machine.execLsr m s
  | .lsra => Sys2Proof.Machine.execLsra s
  | .lsrb => Sys2Proof.Machine.execLsrb s
  | .lsrh => Sys2Proof.Machine.execLsrh s
  | .lsrl => Sys2Proof.Machine.execLsrl s
  | .asl m => Sys2Proof.Machine.execAsl m s
  | .asla => Sys2Proof.Machine.execAsla s
  | .aslb => Sys2Proof.Machine.execAslb s
  | .aslh => Sys2Proof.Machine.execAslh s
  | .asll => Sys2Proof.Machine.execAsll s
  | .asr m => Sys2Proof.Machine.execAsr m s
  | .asra => Sys2Proof.Machine.execAsra s
  | .asrb => Sys2Proof.Machine.execAsrb s
  | .asrh => Sys2Proof.Machine.execAsrh s
  | .asrl => Sys2Proof.Machine.execAsrl s
  | .ror m => Sys2Proof.Machine.execRor m s
  | .rora => Sys2Proof.Machine.execRora s
  | .rorb => Sys2Proof.Machine.execRorb s
  | .rorh => Sys2Proof.Machine.execRorh s
  | .rorl => Sys2Proof.Machine.execRorl s
  | .rol m => Sys2Proof.Machine.execRol m s
  | .rola => Sys2Proof.Machine.execRola s
  | .rolb => Sys2Proof.Machine.execRolb s
  | .rolh => Sys2Proof.Machine.execRolh s
  | .roll => Sys2Proof.Machine.execRoll s
  | .aba => Sys2Proof.Machine.execAba s
  | .alh => Sys2Proof.Machine.execAlh s
  | .sba => Sys2Proof.Machine.execSba s
  | .slh => Sys2Proof.Machine.execSlh s
  | .cba => Sys2Proof.Machine.execCba s
  | .clh => Sys2Proof.Machine.execClh s
  | .sxtb => Sys2Proof.Machine.execSxtb s
  | .sxtl => Sys2Proof.Machine.execSxtl s
  | .mul => Sys2Proof.Machine.execMul s
  | .daa => Sys2Proof.Machine.execDaa s
  | .clc => Sys2Proof.Machine.execClc s
  | .sec => Sys2Proof.Machine.execSec s
  | .clv => Sys2Proof.Machine.execClv s
  | .sev => Sys2Proof.Machine.execSev s
  | .tap => Sys2Proof.Machine.execTap s
  | .tpa => Sys2Proof.Machine.execTpa s
  | .ldd o => Sys2Proof.Machine.execLdd o s
  | .lde o => Sys2Proof.Machine.execLde o s
  | .std m => Sys2Proof.Machine.execStd m s
  | .ste m => Sys2Proof.Machine.execSte m s
  | .xgde => Sys2Proof.Machine.execXgde s
  | .addd o => Sys2Proof.Machine.execAddd o s
  | .adde o => Sys2Proof.Machine.execAdde o s
  | .subd o => Sys2Proof.Machine.execSubd o s
  | .sube o => Sys2Proof.Machine.execSube o s
  | .cmpd o => Sys2Proof.Machine.execCmpd o s
  | .cmpe o => Sys2Proof.Machine.execCmpe o s
  | .aed => Sys2Proof.Machine.execAed s
  | .sed => Sys2Proof.Machine.execSed s
  | .ced => Sys2Proof.Machine.execCed s
  | .med => Sys2Proof.Machine.execMed s
  | .lsrd => Sys2Proof.Machine.execLsrd s
  | .lsre => Sys2Proof.Machine.execLsre s
  | .asrd => Sys2Proof.Machine.execAsrd s
  | .asre => Sys2Proof.Machine.execAsre s
  | .asld => Sys2Proof.Machine.execAsld s
  | .asle => Sys2Proof.Machine.execAsle s
  | .idiv => Sys2Proof.Machine.execIdiv s
  | .fdiv => Sys2Proof.Machine.execFdiv s
  | .ldx o => Sys2Proof.Machine.execLdx o s
  | .ldy o => Sys2Proof.Machine.execLdy o s
  | .ldz o => Sys2Proof.Machine.execLdz o s
  | .stx m => Sys2Proof.Machine.execStx m s
  | .sty m => Sys2Proof.Machine.execSty m s
  | .stz m => Sys2Proof.Machine.execStz m s
  | .pshx => Sys2Proof.Machine.execPshx s
  | .pshy => Sys2Proof.Machine.execPshy s
  | .pshz => Sys2Proof.Machine.execPshz s
  | .pulx => Sys2Proof.Machine.execPulx s
  | .puly => Sys2Proof.Machine.execPuly s
  | .pulz => Sys2Proof.Machine.execPulz s
  | .xgdx => Sys2Proof.Machine.execXgdx s
  | .xgdy => Sys2Proof.Machine.execXgdy s
  | .xgdz => Sys2Proof.Machine.execXgdz s
  | .xgex => Sys2Proof.Machine.execXgex s
  | .xgey => Sys2Proof.Machine.execXgey s
  | .xgez => Sys2Proof.Machine.execXgez s
  | .cpx o => Sys2Proof.Machine.execCpx o s
  | .cpy o => Sys2Proof.Machine.execCpy o s
  | .cpz o => Sys2Proof.Machine.execCpz o s
  | .inx => Sys2Proof.Machine.execInx s
  | .iny => Sys2Proof.Machine.execIny s
  | .inz => Sys2Proof.Machine.execInz s
  | .dex => Sys2Proof.Machine.execDex s
  | .dey => Sys2Proof.Machine.execDey s
  | .dez => Sys2Proof.Machine.execDez s
  | .addx o => Sys2Proof.Machine.execAddx o s
  | .addy o => Sys2Proof.Machine.execAddy o s
  | .addz o => Sys2Proof.Machine.execAddz o s
  | .abx => Sys2Proof.Machine.execAbx s
  | .aby => Sys2Proof.Machine.execAby s
  | .abz => Sys2Proof.Machine.execAbz s
  | .lds o => Sys2Proof.Machine.execLds o s
  | .sts m => Sys2Proof.Machine.execSts m s
  | .tsx => Sys2Proof.Machine.execTsx s
  | .tsy => Sys2Proof.Machine.execTsy s
  | .tsz => Sys2Proof.Machine.execTsz s
  | .txs => Sys2Proof.Machine.execTxs s
  | .tys => Sys2Proof.Machine.execTys s
  | .tzs => Sys2Proof.Machine.execTzs s
  | .ins => Sys2Proof.Machine.execIns s
  | .des => Sys2Proof.Machine.execDes s
  | .nop => Sys2Proof.Machine.execNop s
  | .jmp m => Sys2Proof.Machine.execJmp m s
  | .jsr m => Sys2Proof.Machine.execJsr m s
  | .rts => Sys2Proof.Machine.execRts s
  | .bsr off => Sys2Proof.Machine.execBsr off s
  | .bra off => Sys2Proof.Machine.execBra off s
  | .brset m mask off => Sys2Proof.Machine.execBrset m mask off s
  | .brclr m mask off => Sys2Proof.Machine.execBrclr m mask off s
  | .bmi off => Sys2Proof.Machine.execBmi off s
  | .bpl off => Sys2Proof.Machine.execBpl off s
  | .beq off => Sys2Proof.Machine.execBeq off s
  | .bne off => Sys2Proof.Machine.execBne off s
  | .bcs off => Sys2Proof.Machine.execBcs off s
  | .bcc off => Sys2Proof.Machine.execBcc off s
  | .bvs off => Sys2Proof.Machine.execBvs off s
  | .bvc off => Sys2Proof.Machine.execBvc off s
  | .bgt off => Sys2Proof.Machine.execBgt off s
  | .blt off => Sys2Proof.Machine.execBlt off s
  | .bge off => Sys2Proof.Machine.execBge off s
  | .ble off => Sys2Proof.Machine.execBle off s
  | .bhi off => Sys2Proof.Machine.execBhi off s
  | .blo off => Sys2Proof.Machine.execBlo off s
  | .bhs off => Sys2Proof.Machine.execBhs off s
  | .bls off => Sys2Proof.Machine.execBls off s
  | .cli => Sys2Proof.Machine.execCli s
  | .sei => Sys2Proof.Machine.execSei s
  | .swi => Sys2Proof.Machine.execSwi s
  | .wai => Sys2Proof.Machine.execWai s
  | .rti => Sys2Proof.Machine.execRti s
  | .stop => Sys2Proof.Machine.execStop s
  | .unrecognised => Sys2Proof.Machine.execUnrecognised s

end Sys2Proof.Machine
end

