-- ==== Sys2Proof/Machine/Step.lean ====
section
/-! DEFINITION. One step of the machine (`60_exceptions.md` R315), and the placing of an instruction where the next step
fetches it. -/

namespace Sys2Proof.Machine

/-- One step: what the boundary asks for, or else the instruction at PC (R315). -/
def step (s : State) : Host.Outcome State Fault Refusal :=
  match s.boundaryEvent with
  | some t => .next t
  | none => exec s.fetch.1 s.advanced

/-- `s` with the instruction whose bits are `w` stored at PC, so that the very next step runs it (entry 28). -/
def State.withFetchWord (s : State) (nbits w : Nat) : State := s.placeInstr nbits w

end Sys2Proof.Machine
end

