-- ==== Sys2Proof/Safety.lean ====
section
/-! DEFINITION. The terms in which claims speak of a run: the bytes an instruction starts with, the invariant of the
machine, what an instruction leaves unchanged (its frame), and what the stacked frame of an interrupt holds. The machine
has no fault (R300), so a safe run is one in which the invariant holds. -/

namespace Sys2Proof

/-- The reader `rd` starts with the bytes of `bs`; what follows them is anything. -/
def StartsWith (rd : Nat → Byte) (bs : List Byte) : Prop := ∀ k (h : k < bs.length), rd k = bs[k]

/-- The accumulators that make up a double accumulator (R11). -/
def Dbl.halves : Dbl → List Acc
  | .D => [.A, .B]
  | .E => [.H, .L]

/-- The accumulator a single-operand instruction writes, if its operand is one. -/
def Target8.accs : Target8 → List Acc
  | .acc a => [a]
  | .mem _ => []

/-- The accumulator that is a single-operand instruction's operand, if one is. -/
def Target8.acc? : Target8 → Option Acc
  | .acc a => some a
  | .mem _ => none

/-- The member of `H_WRITERS` that an instruction is, if it can be one (R5, R19; D10, U7; entry 9). -/
def Instr.hWriter : Instr → Option Config.HWriter
  | .adda _ => some (.add .A)
  | .addb _ => some (.add .B)
  | .addh _ => some (.add .H)
  | .addl _ => some (.add .L)
  | .adca _ => some (.adc .A)
  | .adcb _ => some (.adc .B)
  | .adch _ => some (.adc .H)
  | .adcl _ => some (.adc .L)
  | .suba _ => some (.sub .A)
  | .subb _ => some (.sub .B)
  | .subh _ => some (.sub .H)
  | .subl _ => some (.sub .L)
  | .sbca _ => some (.sbc .A)
  | .sbcb _ => some (.sbc .B)
  | .sbch _ => some (.sbc .H)
  | .sbcl _ => some (.sbc .L)
  | .cmpa _ => some (.cmp .A)
  | .cmpb _ => some (.cmp .B)
  | .cmph _ => some (.cmp .H)
  | .cmpl _ => some (.cmp .L)
  | .bita _ => some (.bit .A)
  | .bitb _ => some (.bit .B)
  | .bith _ => some (.bit .H)
  | .bitl _ => some (.bit .L)
  | .anda _ => some (.and .A)
  | .andb _ => some (.and .B)
  | .andh _ => some (.and .H)
  | .andl _ => some (.and .L)
  | .oraa _ => some (.ora .A)
  | .orab _ => some (.ora .B)
  | .orah _ => some (.ora .H)
  | .oral _ => some (.ora .L)
  | .eora _ => some (.eor .A)
  | .eorb _ => some (.eor .B)
  | .eorh _ => some (.eor .H)
  | .eorl _ => some (.eor .L)
  | .inc _ => some (.inc none)
  | .inca => some (.inc (some .A))
  | .incb => some (.inc (some .B))
  | .inch => some (.inc (some .H))
  | .incl => some (.inc (some .L))
  | .dec _ => some (.dec none)
  | .deca => some (.dec (some .A))
  | .decb => some (.dec (some .B))
  | .dech => some (.dec (some .H))
  | .decl => some (.dec (some .L))
  | .neg _ => some (.neg none)
  | .nega => some (.neg (some .A))
  | .negb => some (.neg (some .B))
  | .negh => some (.neg (some .H))
  | .negl => some (.neg (some .L))
  | .com _ => some (.com none)
  | .coma => some (.com (some .A))
  | .comb => some (.com (some .B))
  | .comh => some (.com (some .H))
  | .coml => some (.com (some .L))
  | .clr _ => some (.clr none)
  | .clra => some (.clr (some .A))
  | .clrb => some (.clr (some .B))
  | .clrh => some (.clr (some .H))
  | .clrl => some (.clr (some .L))
  | .bset _ _ => some .bset
  | .bclr _ _ => some .bclr
  | .tst _ => some (.tst none)
  | .tsta => some (.tst (some .A))
  | .tstb => some (.tst (some .B))
  | .tsth => some (.tst (some .H))
  | .tstl => some (.tst (some .L))
  | .lsr _ => some (.lsr none)
  | .lsra => some (.lsr (some .A))
  | .lsrb => some (.lsr (some .B))
  | .lsrh => some (.lsr (some .H))
  | .lsrl => some (.lsr (some .L))
  | .asl _ => some (.asl none)
  | .asla => some (.asl (some .A))
  | .aslb => some (.asl (some .B))
  | .aslh => some (.asl (some .H))
  | .asll => some (.asl (some .L))
  | .asr _ => some (.asr none)
  | .asra => some (.asr (some .A))
  | .asrb => some (.asr (some .B))
  | .asrh => some (.asr (some .H))
  | .asrl => some (.asr (some .L))
  | .ror _ => some (.ror none)
  | .rora => some (.ror (some .A))
  | .rorb => some (.ror (some .B))
  | .rorh => some (.ror (some .H))
  | .rorl => some (.ror (some .L))
  | .rol _ => some (.rol none)
  | .rola => some (.rol (some .A))
  | .rolb => some (.rol (some .B))
  | .rolh => some (.rol (some .H))
  | .roll => some (.rol (some .L))
  | .aba => some .aba
  | .alh => some .alh
  | .sba => some .sba
  | .slh => some .slh
  | .cba => some .cba
  | .clh => some .clh
  | .sxtb => some .sxtb
  | .sxtl => some .sxtl
  | .mul => some .mul
  | .daa => some .daa
  | .addd _ => some (.addDbl .D)
  | .adde _ => some (.addDbl .E)
  | .subd _ => some (.subDbl .D)
  | .sube _ => some (.subDbl .E)
  | .cmpd _ => some (.cmpDbl .D)
  | .cmpe _ => some (.cmpDbl .E)
  | .aed => some .aed
  | .sed => some .sed
  | .ced => some .ced
  | .med => some .med
  | .lsrd => some (.lsrDbl .D)
  | .lsre => some (.lsrDbl .E)
  | .asrd => some (.asrDbl .D)
  | .asre => some (.asrDbl .E)
  | .asld => some (.aslDbl .D)
  | .asle => some (.aslDbl .E)
  | .cpx _ => some (.cpIndex .X)
  | .cpy _ => some (.cpIndex .Y)
  | .cpz _ => some (.cpIndex .Z)
  | .inx => some (.inIndex .X)
  | .iny => some (.inIndex .Y)
  | .inz => some (.inIndex .Z)
  | .dex => some (.deIndex .X)
  | .dey => some (.deIndex .Y)
  | .dez => some (.deIndex .Z)
  | .ldaa _ | .ldab _ | .ldah _ | .ldal _ | .staa _ | .stab _ | .stah _ | .stal _ | .tab | .tba | .thl | .tlh | .psha
  | .pshb | .pshh | .pshl | .pula | .pulb | .pulh | .pull | .clc | .sec | .clv | .sev | .tap | .tpa | .ldd _ | .lde _
  | .std _ | .ste _ | .xgde | .idiv | .fdiv | .ldx _ | .ldy _ | .ldz _ | .stx _ | .sty _ | .stz _ | .pshx | .pshy |
  .pshz | .pulx | .puly | .pulz | .xgdx | .xgdy | .xgdz | .xgex | .xgey | .xgez | .lds _ | .sts _ | .tsx | .tsy | .tsz
  | .txs | .tys | .tzs | .ins | .des | .nop | .jmp _ | .jsr _ | .rts | .bsr _ | .bra _ | .brset _ _ _ | .brclr _ _ _ |
  .bmi _ | .bpl _ | .beq _ | .bne _ | .bcs _ | .bcc _ | .bvs _ | .bvc _ | .bgt _ | .blt _ | .bge _ | .ble _ | .bhi _ |
  .blo _ | .bhs _ | .bls _ | .addx _ | .addy _ | .addz _ | .abx | .aby | .abz | .cli | .sei | .swi | .wai | .rti |
  .stop | .unrecognised => none

/-- The memory address a single-operand instruction writes, if its operand is in memory: the effective address in the state
before it. -/
def Target8.bytes : Target8 → Machine.State → List Word
  | .acc _, _ => []
  | .mem m, s => [Machine.ea m s]

end Sys2Proof

namespace Sys2Proof.Machine

/-- The invariant: memory is in canonical form, its addresses below 65536 (R41; entry 21). Every other field admits every
value of its type. -/
def State.Inv (s : State) : Prop := s.mem.wf = true

/-- From `s` to `t`, only the accumulators of `accs`, the index registers of `iregs`, the flags of `flags` and the bytes of
memory at the addresses of `bytes` may have changed, and the configuration has not. D and E are views of the accumulators
(R11). `mem.read` is what memory holds, and what a read gives where there is memory (R43). -/
structure Kept (s t : State) (accs : List Acc) (iregs : List IReg) (flags : List Flag) (bytes : List Word) : Prop where
  accs : ∀ a, a ∉ accs → t.acc a = s.acc a
  iregs : ∀ r, r ∉ iregs → t.ireg r = s.ireg r
  flags : ∀ f, f ∉ flags → t.flag f = s.flag f
  bytes : ∀ p, p ∉ bytes → t.mem.read p = s.mem.read p
  cfg : t.cfg = s.cfg

/-- The flags that an instruction may write: those of `flags`, and H if it is one of `H_WRITERS` (R5, R19; D10, U7; entry 9). -/
def State.writes (s : State) (w : Config.HWriter) (flags : List Flag) : List Flag :=
  if w ∈ s.cfg.hWriters then .H :: flags else flags

/-- From `s` to `t`, the byte `v` was stored at `p`: RAM holds it, and anything else is as before (R43, R48; D7; entry 22). -/
def Stored (s t : State) (p : Word) (v : Byte) : Prop :=
  t.mem.read p = if s.writable p then v else s.mem.read p

/-- The model's own fields but the configuration are as before: the input schedule, the draw counter, and where the executing
instruction lies. -/
structure SameModel (s t : State) : Prop where
  inputs : t.inputs = s.inputs
  draws : t.draws = s.draws
  opcodeAt : t.opcodeAt = s.opcodeAt
  operandAt : t.operandAt = s.operandAt

/-- The run state and the model's own fields are as before. -/
structure SameControl (s t : State) : Prop extends SameModel s t where
  run : t.run = s.run

/-- PC, S, the run state and the model's own fields are as before. PC is `Next_PC` while an instruction
executes (R100), so an instruction that leaves it goes on with the next one. -/
structure Falls (s t : State) : Prop extends SameControl s t where
  sp : t.sp = s.sp
  pc : t.pc = s.pc

/-- The flags N and Z describe the result `r` (R117). -/
def State.NZof {w : Nat} (t : State) (r : BitVec w) : Prop :=
  t.flag .N = r.msb ∧ t.flag .Z = decide (r = 0)

/-- The columns `N Z 0 -`: N and Z of the result, V clear (R117). -/
structure LogicFlags {w : Nat} (t : State) (r : BitVec w) : Prop where
  nz : t.NZof r
  v : t.flag .V = false

/-- The flags of the sum `r` of `p`, `q` and a carry in: N, Z, V, C (R113, R115). -/
structure AddFlags {w : Nat} (t : State) (p q r : BitVec w) (cin : Bool) : Prop where
  nz : t.NZof r
  v : t.flag .V = ((p.msb == q.msb) && (r.msb != p.msb))
  c : t.flag .C = decide (2 ^ w ≤ p.toNat + q.toNat + cin.toNat)

/-- The flags of the difference `r` of `p` and `q` with a borrow in: N, Z, V, and C as borrow (R114, R116). -/
structure SubFlags {w : Nat} (t : State) (p q r : BitVec w) (bin : Bool) : Prop where
  nz : t.NZof r
  v : t.flag .V = ((p.msb != q.msb) && (r.msb != p.msb))
  c : t.flag .C = decide (p.toNat < q.toNat + bin.toNat)

/-- The flags of a shift or rotate with result `r` and the bit `out` shifted out: N, Z, C, and V = N xor C (R118). -/
structure ShiftFlags {w : Nat} (t : State) (r : BitVec w) (out : Bool) : Prop where
  nz : t.NZof r
  v : t.flag .V = (r.msb ^^ out)
  c : t.flag .C = out

/-- The addresses of the two bytes of a 16-bit datum at `p` (R43). -/
def wordAt (p : Word) : List Word := [p, p + 1]

/-- The thirteen addresses of the frame an interrupt stacks with S at `sp` (R305). -/
def frameAddrs (sp : Word) : List Word :=
  [sp, sp - 1, sp - 2, sp - 3, sp - 4, sp - 5, sp - 6, sp - 7, sp - 8, sp - 9, sp - 10, sp - 11, sp - 12]

/-- The thirteen bytes of that frame were stored, with the registers of `s` and the return address `ret` (R305). -/
def FrameStored (s t : State) (ret : Word) : Prop :=
  Stored s t s.sp (loByte s.z) ∧ Stored s t (s.sp - 1) (hiByte s.z) ∧ Stored s t (s.sp - 2) s.h ∧
  Stored s t (s.sp - 3) s.l ∧ Stored s t (s.sp - 4) (loByte ret) ∧ Stored s t (s.sp - 5) (hiByte ret) ∧
  Stored s t (s.sp - 6) (loByte s.y) ∧ Stored s t (s.sp - 7) (hiByte s.y) ∧ Stored s t (s.sp - 8) (loByte s.x) ∧
  Stored s t (s.sp - 9) (hiByte s.x) ∧ Stored s t (s.sp - 10) s.a ∧ Stored s t (s.sp - 11) s.b ∧
  Stored s t (s.sp - 12) s.ccr

/-- The operand of a single-operand instruction that starts in `s` takes the value `v` (R108). -/
def Takes (g : Target8) (s t : State) (v : Byte) : Prop :=
  match g with
  | .acc a => t.acc a = v
  | .mem m => Stored s t (ea m s) v

/-- In the state `t` the branch `i` goes to its target with offset `off` if `c` holds, and else changes nothing (R246). -/
def GoesIf (i : Instr) (t : State) (off : Byte) (c : Prop) [Decidable c] : Prop :=
  exec i t = .next (if c then { t with pc := target off t } else t)

/-- In `t` every comparison branch tells how `p` compares with `q`: as unsigned numbers BHI, BHS, BLO, BLS, as signed ones BGT,
BGE, BLT, BLE, and BEQ and BNE whether they are equal (R265). -/
structure ComparesAs {w : Nat} (t : State) (p q : BitVec w) : Prop where
  eq : ∀ off, GoesIf (.beq off) t off (p = q)
  ne : ∀ off, GoesIf (.bne off) t off (p ≠ q)
  hi : ∀ off, GoesIf (.bhi off) t off (q.toNat < p.toNat)
  hs : ∀ off, GoesIf (.bhs off) t off (q.toNat ≤ p.toNat)
  lo : ∀ off, GoesIf (.blo off) t off (p.toNat < q.toNat)
  ls : ∀ off, GoesIf (.bls off) t off (p.toNat ≤ q.toNat)
  gt : ∀ off, GoesIf (.bgt off) t off (q.toInt < p.toInt)
  ge : ∀ off, GoesIf (.bge off) t off (q.toInt ≤ p.toInt)
  lt : ∀ off, GoesIf (.blt off) t off (p.toInt < q.toInt)
  le : ∀ off, GoesIf (.ble off) t off (p.toInt ≤ q.toInt)

/-- Both digits of the byte are decimal (R169). -/
def isBcd (v : Byte) : Prop := v.toNat / 16 ≤ 9 ∧ v.toNat % 16 ≤ 9

/-- The number a byte of two decimal digits stands for (R169). -/
def bcdValue (v : Byte) : Nat := 10 * (v.toNat / 16) + v.toNat % 16

end Sys2Proof.Machine
end

