-- ==== Sys2Proof/Certificates/Slice0/Obligations.lean ====
section
/-! DEFINITION. What is to be proved of the MPU 6916. In every statement about an instruction, `s` is the state in which
it executes, in which PC already holds `Next_PC`, the address after it (R100; entry 40): `Falls s t` says that it goes on
there. `Kept` is its frame, `Stored` a byte stored where the memory map has RAM (D7, entry 22). A state carries its
configuration (entry 43), so a statement about every state is one about every configuration. A statement ends in `exec i s
= .next t`, so it also says where the instruction completes. -/

section

open Sys2Proof Sys2Proof.Machine

/-! ## The byte level -/

/-- Under the default `OPC`, words written out from the tables of R91 to R95 decode to the instructions they stand for. The
codes are PRESUMED (entry 1), the order of the operand bytes, high byte first, is D5 (entry 4), that 0x00 and 0x21 are
unrecognised is D29 (entry 3), that 0x25 reads as BCS, not as BLO, is U15 (entry 32). -/
def Obligations.DecodeKnownWords : Prop :=
  decode .m68hc11 (bytesOf [0x86, 0x25]) = (.ldaa (.imm 0x25), 2) ∧
  decode .m68hc11 (bytesOf [0xB7, 0x12, 0x34]) = (.staa (.dir 0x1234), 3) ∧
  decode .m68hc11 (bytesOf [0x18, 0xE6, 0xFF]) = (.ldab (.mem (.idx .Y false 0xFF)), 3) ∧
  decode .m68hc11 (bytesOf [0xCC, 0x80, 0x01]) = (.ldd (.imm 0x8001), 3) ∧
  decode .m68hc11 (bytesOf [0xCD, 0xA3, 0x07]) = (.cmpd (.mem (.idx .Y false 0x07)), 3) ∧
  decode .m68hc11 (bytesOf [0x1A, 0xEE, 0x08]) = (.ldy (.mem (.idx .X false 0x08)), 3) ∧
  decode .m68hc11 (bytesOf [0x9F, 0x50]) = (.sts (.zp 0x50), 2) ∧
  decode .m68hc11 (bytesOf [0x7C, 0x40, 0x01]) = (.inc (.dir 0x4001), 3) ∧
  decode .m68hc11 (bytesOf [0x12, 0x20, 0x81, 0xFE]) = (.brset (.zp 0x20) 0x81 0xFE, 4) ∧
  decode .m68hc11 (bytesOf [0x25, 0x10]) = (.bcs 0x10, 2) ∧
  decode .m68hc11 (bytesOf [0x06]) = (.tap, 1) ∧
  decode .m68hc11 (bytesOf [0x3F]) = (.swi, 1) ∧
  (decode .m68hc11 (bytesOf [0x00])).1 = .unrecognised ∧
  (decode .m68hc11 (bytesOf [0x21, 0x00])).1 = .unrecognised

/-- Decoding what the encoder writes gives the instruction back, whatever bytes follow, with the number of its bytes; for BLO
and BHS, where `OPC` gives them no code of their own, BCS and BCC (U15, entry 32). This holds for every `OPC` (D1, entry 1),
the default one with its open codes (entry 2) among them; the operand bytes are in the order of D5 (entry 4). -/
def Obligations.EncodeThenDecode : Prop :=
  ∀ (c : Config.Opc) (i : Instr) (bs : List Byte) (rd : Nat → Byte), i.wellFormed = true → encode c i = some bs →
    StartsWith rd bs → decode c rd = (i.readAs c, bs.length)

/-- Encoding what bytes decode to gives the bytes that were read, unless they are unrecognised: a form has one opcode (R71).
This holds for every `OPC` (D1, entry 1), the default one with its open codes (entry 2) among them; the operand bytes are in
the order of D5 (entry 4). -/
def Obligations.DecodeThenEncode : Prop :=
  ∀ (c : Config.Opc) (rd : Nat → Byte), (decode c rd).1 ≠ .unrecognised →
    ∃ bs, encode c (decode c rd).1 = some bs ∧ StartsWith rd bs ∧ (decode c rd).2 = bs.length

/-- The opcode alone selects the form of an instruction and its length: whatever follows it, the same opcode gives the same
form and length (R70, R81). This holds for every `OPC` (D1, entry 1), the default one with its open codes (entry 2) among
them. -/
def Obligations.OpcodeDecides : Prop :=
  ∀ (c : Config.Opc) (rd rd' : Nat → Byte), (decode c rd).1 ≠ .unrecognised →
    (∀ k < (decode c rd).2 - (decode c rd).1.operandLen, rd' k = rd k) →
    (decode c rd').1.form = (decode c rd).1.form ∧ (decode c rd').2 = (decode c rd).2

/-- Every byte sequence is an instruction of Table 1 or unrecognised, and takes at least one byte (R82, R87). This holds for
every `OPC` (entry 1). -/
def Obligations.DecodeIsTotal : Prop :=
  ∀ (c : Config.Opc) (rd : Nat → Byte),
    ((decode c rd).1.wellFormed = true ∨ (decode c rd).1 = .unrecognised) ∧ 1 ≤ (decode c rd).2

/-- The effective address of each addressing mode, as numbers (R101 to R105). That addresses wrap is D3 (entry 7), which
address is "PC" in the relative modes is the parameter `REL_PC_BASE` (D4, entry 8), that an offset is signed is a field of the
operand (D27, entry 41). -/
def Obligations.EffectiveAddress : Prop :=
  ∀ s : State,
    (∀ a, (ea (.zp a) s).toNat = a.toNat) ∧
    (∀ a, ea (.dir a) s = a) ∧
    (∀ r off, (ea (.idx r false off) s).toNat = ((s.ireg r).toNat + off.toNat) % 65536) ∧
    (∀ r off, ((ea (.idx r true off) s).toNat : Int) = ((s.ireg r).toNat + off.toInt) % 65536) ∧
    (s.cfg.relPcBase = .nextPc →
      (∀ off, (ea (.rel off) s).toNat = (s.pc.toNat + off.toNat) % 65536) ∧
      ∀ off, ((target off s).toNat : Int) = (s.pc.toNat + off.toInt) % 65536) ∧
    (s.cfg.relPcBase = .opcode →
      (∀ off, (ea (.rel off) s).toNat = (s.opcodeAt.toNat + off.toNat) % 65536) ∧
      ∀ off, ((target off s).toNat : Int) = (s.opcodeAt.toNat + off.toInt) % 65536) ∧
    (s.cfg.relPcBase = .offsetField →
      (∀ off, (ea (.rel off) s).toNat = (s.operandAt.toNat + off.toNat) % 65536) ∧
      ∀ off, ((target off s).toNat : Int) = ((s.pc - 1).toNat + off.toInt) % 65536)

/-- The memory primitives: one byte and two bytes, high byte first, the address after 0xFFFF being 0x0000 (R43). Where the
memory map has memory a read gives what it holds, and only RAM takes a write (`MemMap`, D7, entry 22). That memory is a list
in canonical form, and that a write keeps it, is the model's (entry 21). -/
def Obligations.MemoryPrimitives : Prop :=
  ∀ (s : State) (p : Word),
    (s.read16 p = s.read8 p ++ s.read8 (p + 1)) ∧
    (s.backed p = true → s.read8 p = s.mem.read p) ∧
    (s.Inv → ∀ v : Byte, (s.write8 p v).Inv ∧ Stored s (s.write8 p v) p v ∧ Kept s (s.write8 p v) [] [] [] [p] ∧
      (s.writable p = true → (s.write8 p v).read8 p = v)) ∧
    (s.Inv → ∀ v : Word, (s.write16 p v).Inv ∧ Stored s (s.write16 p v) p (v.extractLsb' 8 8) ∧
      Stored s (s.write16 p v) (p + 1) (v.extractLsb' 0 8) ∧ Kept s (s.write16 p v) [] [] [] [p, p + 1] ∧
      (s.writable p = true → s.writable (p + 1) = true → (s.write16 p v).read16 p = v))

/-- V after an addition or subtraction says that the true signed result, carry or borrow in included, does not fit the width
(R23, R113 to R116). -/
def Obligations.OverflowIsSigned : Prop :=
  (∀ (p q : Byte) (c : Bool), (addAlu p q c).overflow = true ↔
    p.toInt + q.toInt + c.toNat < -128 ∨ 127 < p.toInt + q.toInt + c.toNat) ∧
  (∀ (p q : Byte) (b : Bool), (subAlu p q b).overflow = true ↔
    p.toInt - q.toInt - b.toNat < -128 ∨ 127 < p.toInt - q.toInt - b.toNat) ∧
  (∀ p q : Word, (addAlu p q false).overflow = true ↔
    p.toInt + q.toInt < -32768 ∨ 32767 < p.toInt + q.toInt) ∧
  (∀ p q : Word, (subAlu p q false).overflow = true ↔
    p.toInt - q.toInt < -32768 ∨ 32767 < p.toInt - q.toInt)

/-! ## 8-bit operations -/

/-- LDA (R130). -/
def Obligations.LoadAccumulator : Prop :=
  ∀ (a : Acc) (o : Src8) (s : State), ∃ t, exec (Instr.lda a o) s = .next t ∧
    t.acc a = oper8 o s ∧ LogicFlags t (oper8 o s) ∧ Kept s t [a] [] [.N, .Z, .V] [] ∧ Falls s t

/-- STA (R131). That N and Z describe the value stored is D22 (entry 24). A store takes effect where there is RAM (D7, entry
22). -/
def Obligations.StoreAccumulator : Prop :=
  ∀ (a : Acc) (m : MemOp) (s : State), s.Inv → ∃ t, exec (Instr.sta a m) s = .next t ∧
    Stored s t (ea m s) (s.acc a) ∧ LogicFlags t (s.acc a) ∧ Kept s t [] [] [.N, .Z, .V] [ea m s] ∧ Falls s t

/-- TAB, TBA, THL, TLH (R132 to R135). -/
def Obligations.TransferAccumulator : Prop :=
  ∀ (i : Instr) (dst src : Acc), (i, dst, src) ∈ [(.tab, .B, .A), (.tba, .A, .B), (.thl, .L, .H), (.tlh, .H, .L)] →
    ∀ s : State, ∃ t, exec i s = .next t ∧
      t.acc dst = s.acc src ∧ LogicFlags t (s.acc src) ∧ Kept s t [dst] [] [.N, .Z, .V] [] ∧ Falls s t

/-- PSH a and PSH x (R136, R212): a word with its low byte first, so that the high byte lies lower. A store takes effect where
there is RAM (D7, entry 22). -/
def Obligations.PushRegister : Prop :=
  (∀ (a : Acc) (s : State), s.Inv → ∃ t, exec (Instr.psh a) s = .next t ∧
    Stored s t s.sp (s.acc a) ∧ t.sp = s.sp - 1 ∧ t.pc = s.pc ∧ Kept s t [] [] [] [s.sp] ∧ SameControl s t) ∧
  (∀ (r : IReg) (s : State), s.Inv → ∃ t, exec (Instr.pshIndex r) s = .next t ∧
    Stored s t s.sp (loByte (s.ireg r)) ∧ Stored s t (s.sp - 1) (hiByte (s.ireg r)) ∧ t.sp = s.sp - 2 ∧ t.pc = s.pc ∧
    Kept s t [] [] [] [s.sp, s.sp - 1] ∧ SameControl s t)

/-- PUL a and PUL x (R137, R213). -/
def Obligations.PullRegister : Prop :=
  (∀ (a : Acc) (s : State), ∃ t, exec (Instr.pul a) s = .next t ∧
    t.acc a = s.read8 (s.sp + 1) ∧ t.sp = s.sp + 1 ∧ t.pc = s.pc ∧ Kept s t [a] [] [] [] ∧ SameControl s t) ∧
  (∀ (r : IReg) (s : State), ∃ t, exec (Instr.pulIndex r) s = .next t ∧
    t.ireg r = s.read8 (s.sp + 1) ++ s.read8 (s.sp + 2) ∧ t.sp = s.sp + 2 ∧ t.pc = s.pc ∧
    Kept s t [] [r] [] [] ∧ SameControl s t)

/-- ADD a, ADC a, ABA, ALH (R138, R139, R160, R161). Which of them write H is the parameter `H_WRITERS` (D10, entry 9). -/
def Obligations.AddAccumulator : Prop :=
  (∀ (a : Acc) (o : Src8) (s : State), ∃ t, exec (Instr.addAcc a o) s = .next t ∧
    t.acc a = s.acc a + oper8 o s ∧ AddFlags t (s.acc a) (oper8 o s) (s.acc a + oper8 o s) false ∧
    t.flag .H = (if .add a ∈ s.cfg.hWriters then decide (16 ≤ (s.acc a).toNat % 16 + (oper8 o s).toNat % 16)
      else s.flag .H) ∧
    Kept s t [a] [] [.N, .Z, .V, .C, .H] [] ∧ Falls s t) ∧
  (∀ (a : Acc) (o : Src8) (s : State), ∃ t, exec (Instr.adcAcc a o) s = .next t ∧
    t.acc a = s.acc a + oper8 o s + (if s.flag .C then 1 else 0) ∧
    AddFlags t (s.acc a) (oper8 o s) (s.acc a + oper8 o s + (if s.flag .C then 1 else 0)) (s.flag .C) ∧
    t.flag .H = (if .adc a ∈ s.cfg.hWriters
      then decide (16 ≤ (s.acc a).toNat % 16 + (oper8 o s).toNat % 16 + (s.flag .C).toNat) else s.flag .H) ∧
    Kept s t [a] [] [.N, .Z, .V, .C, .H] [] ∧ Falls s t) ∧
  (∀ (i : Instr) (w : Config.HWriter) (a b : Acc), (i, w, a, b) ∈ [(.aba, .aba, .A, .B), (.alh, .alh, .H, .L)] →
    ∀ s : State, ∃ t, exec i s = .next t ∧
    t.acc a = s.acc a + s.acc b ∧ AddFlags t (s.acc a) (s.acc b) (s.acc a + s.acc b) false ∧
    t.flag .H = (if w ∈ s.cfg.hWriters then decide (16 ≤ (s.acc a).toNat % 16 + (s.acc b).toNat % 16)
      else s.flag .H) ∧
    Kept s t [a] [] [.N, .Z, .V, .C, .H] [] ∧ Falls s t)

/-- SUB a, SBC a, SBA, SLH (R140, R141, R162, R163). That C is the borrow is D25 (entry 25). Which instructions write H is the
parameter `H_WRITERS` (D10, entry 9). -/
def Obligations.SubtractAccumulator : Prop :=
  (∀ (a : Acc) (o : Src8) (s : State), ∃ t, exec (Instr.subAcc a o) s = .next t ∧
    t.acc a = s.acc a - oper8 o s ∧ SubFlags t (s.acc a) (oper8 o s) (s.acc a - oper8 o s) false ∧
    Kept s t [a] [] (s.writes (.sub a) [.N, .Z, .V, .C]) [] ∧ Falls s t) ∧
  (∀ (a : Acc) (o : Src8) (s : State), ∃ t, exec (Instr.sbcAcc a o) s = .next t ∧
    t.acc a = s.acc a - oper8 o s - (if s.flag .C then 1 else 0) ∧
    SubFlags t (s.acc a) (oper8 o s) (s.acc a - oper8 o s - (if s.flag .C then 1 else 0)) (s.flag .C) ∧
    Kept s t [a] [] (s.writes (.sbc a) [.N, .Z, .V, .C]) [] ∧ Falls s t) ∧
  (∀ (i : Instr) (w : Config.HWriter) (a b : Acc), (i, w, a, b) ∈ [(.sba, .sba, .A, .B), (.slh, .slh, .H, .L)] →
    ∀ s : State, ∃ t, exec i s = .next t ∧
    t.acc a = s.acc a - s.acc b ∧ SubFlags t (s.acc a) (s.acc b) (s.acc a - s.acc b) false ∧
    Kept s t [a] [] (s.writes w [.N, .Z, .V, .C]) [] ∧ Falls s t)

/-- CMP a, CBA, CLH, CMP d, CED, CP x (R142, R164, R165, R195, R198, R215): the flags of the subtraction, H where it is
written, and nothing else. That C is the borrow is D25 (entry 25), that N and Z describe the whole word D22 (entry 24). Which
instructions write H is the parameter `H_WRITERS` (D10, entry 9). -/
def Obligations.CompareRegister : Prop :=
  (∀ (a : Acc) (o : Src8) (s : State), ∃ t, exec (Instr.cmpAcc a o) s = .next t ∧
    SubFlags t (s.acc a) (oper8 o s) (s.acc a - oper8 o s) false ∧
      Kept s t [] [] (s.writes (.cmp a) [.N, .Z, .V, .C]) [] ∧ Falls s t) ∧
  (∀ (i : Instr) (w : Config.HWriter) (a b : Acc), (i, w, a, b) ∈ [(.cba, .cba, .A, .B), (.clh, .clh, .H, .L)] →
    ∀ s : State, ∃ t, exec i s = .next t ∧
    SubFlags t (s.acc a) (s.acc b) (s.acc a - s.acc b) false ∧ Kept s t [] [] (s.writes w [.N, .Z, .V, .C]) [] ∧ Falls s t) ∧
  (∀ (d : Dbl) (o : Src16) (s : State), ∃ t, exec (Instr.cmpDbl d o) s = .next t ∧
    SubFlags t (s.dbl d) (oper16 o s) (s.dbl d - oper16 o s) false ∧
      Kept s t [] [] (s.writes (.cmpDbl d) [.N, .Z, .V, .C]) [] ∧
    Falls s t) ∧
  (∀ s : State, ∃ t, exec .ced s = .next t ∧
    SubFlags t (s.dbl .D) (s.dbl .E) (s.dbl .D - s.dbl .E) false ∧ Kept s t [] [] (s.writes .ced [.N, .Z, .V, .C]) [] ∧
      Falls s t) ∧
  (∀ (r : IReg) (o : Src16) (s : State), ∃ t, exec (Instr.cpIndex r o) s = .next t ∧
    SubFlags t (s.ireg r) (oper16 o s) (s.ireg r - oper16 o s) false ∧
      Kept s t [] [] (s.writes (.cpIndex r) [.N, .Z, .V, .C]) [] ∧
    Falls s t)

/-- AND a, ORA a, EOR a, and BIT a, which discards its result (R143 to R146). Which instructions write H is the parameter
`H_WRITERS` (D10, entry 9). -/
def Obligations.LogicAccumulator : Prop :=
  ∀ (a : Acc) (o : Src8) (s : State),
    (∃ t, exec (Instr.bitAcc a o) s = .next t ∧ LogicFlags t (s.acc a &&& oper8 o s) ∧
      Kept s t [] [] (s.writes (.bit a) [.N, .Z, .V]) [] ∧ Falls s t) ∧
    (∃ t, exec (Instr.andAcc a o) s = .next t ∧ t.acc a = s.acc a &&& oper8 o s ∧
      LogicFlags t (s.acc a &&& oper8 o s) ∧ Kept s t [a] [] (s.writes (.and a) [.N, .Z, .V]) [] ∧ Falls s t) ∧
    (∃ t, exec (Instr.oraAcc a o) s = .next t ∧ t.acc a = s.acc a ||| oper8 o s ∧
      LogicFlags t (s.acc a ||| oper8 o s) ∧ Kept s t [a] [] (s.writes (.ora a) [.N, .Z, .V]) [] ∧ Falls s t) ∧
    (∃ t, exec (Instr.eorAcc a o) s = .next t ∧ t.acc a = s.acc a ^^^ oper8 o s ∧
      LogicFlags t (s.acc a ^^^ oper8 o s) ∧ Kept s t [a] [] (s.writes (.eor a) [.N, .Z, .V]) [] ∧ Falls s t)

/-- INC and DEC of an accumulator or a memory byte (R147, R148). C is kept. Which instructions write H is the parameter
`H_WRITERS` (D10, entry 9). A store takes effect where there is RAM (D7, entry 22). -/
def Obligations.IncrementDecrement : Prop :=
  ∀ (g : Target8) (s : State), s.Inv →
    (∃ t, exec (Instr.incOper g) s = .next t ∧ Takes g s t (readTarget g s + 1) ∧ t.NZof (readTarget g s + 1) ∧
      t.flag .V = decide (readTarget g s = 0x7F) ∧ Kept s t g.accs [] (s.writes (.inc g.acc?) [.N, .Z, .V]) (g.bytes s) ∧
        Falls s t) ∧
    (∃ t, exec (Instr.decOper g) s = .next t ∧ Takes g s t (readTarget g s - 1) ∧ t.NZof (readTarget g s - 1) ∧
      t.flag .V = decide (readTarget g s = 0x80) ∧ Kept s t g.accs [] (s.writes (.dec g.acc?) [.N, .Z, .V]) (g.bytes s) ∧
        Falls s t)

/-- NEG and COM of an accumulator or a memory byte (R149, R150). That C after NEG is the borrow is D25 (entry 25). Which
instructions write H is the parameter `H_WRITERS` (D10, entry 9). A store takes effect where there is RAM (D7, entry 22). -/
def Obligations.NegateComplement : Prop :=
  ∀ (g : Target8) (s : State), s.Inv →
    (∃ t, exec (Instr.negOper g) s = .next t ∧ Takes g s t (0 - readTarget g s) ∧ t.NZof (0 - readTarget g s) ∧
      t.flag .V = decide (readTarget g s = 0x80) ∧ t.flag .C = decide (readTarget g s ≠ 0) ∧
      Kept s t g.accs [] (s.writes (.neg g.acc?) [.N, .Z, .V, .C]) (g.bytes s) ∧ Falls s t) ∧
    (∃ t, exec (Instr.comOper g) s = .next t ∧ Takes g s t (~~~(readTarget g s)) ∧ t.NZof (~~~(readTarget g s)) ∧
      t.flag .V = false ∧ t.flag .C = true ∧ Kept s t g.accs [] (s.writes (.com g.acc?) [.N, .Z, .V, .C]) (g.bytes s) ∧
        Falls s t)

/-- CLR and TST of an accumulator or a memory byte (R151, R154). That TST writes nothing is D23 (entry 23). A store takes
effect where there is RAM (D7, entry 22). Which instructions write H is the parameter `H_WRITERS` (D10, entry 9). -/
def Obligations.ClearTest : Prop :=
  ∀ (g : Target8) (s : State),
    (s.Inv → ∃ t, exec (Instr.clrOper g) s = .next t ∧ Takes g s t 0 ∧ t.flag .N = false ∧ t.flag .Z = true ∧
      t.flag .V = false ∧ t.flag .C = false ∧ Kept s t g.accs [] (s.writes (.clr g.acc?) [.N, .Z, .V, .C]) (g.bytes s) ∧
        Falls s t) ∧
    (∃ t, exec (Instr.tstOper g) s = .next t ∧ t.NZof (readTarget g s) ∧ t.flag .V = false ∧ t.flag .C = false ∧
      Kept s t [] [] (s.writes (.tst g.acc?) [.N, .Z, .V, .C]) [] ∧ Falls s t)

/-- LSR, ASR, ASL, ROR, ROL of an accumulator or a memory byte, with the result written bit by bit as in the table of R118
(R155 to R159). A store takes effect where there is RAM (D7, entry 22). Which instructions write H is the parameter
`H_WRITERS` (D10, entry 9). -/
def Obligations.ShiftRotate : Prop :=
  ∀ (g : Target8) (s : State), s.Inv → ∀ (i : Instr) (w : Config.HWriter) (r : Byte) (out : Bool),
    (i, w, r, out) ∈
      [(Instr.lsrOper g, .lsr g.acc?, BitVec.cons false ((readTarget g s).extractLsb' 1 7), (readTarget g s).getLsbD 0),
       (Instr.asrOper g, .asr g.acc?, BitVec.cons (readTarget g s).msb ((readTarget g s).extractLsb' 1 7),
         (readTarget g s).getLsbD 0),
       (Instr.aslOper g, .asl g.acc?, BitVec.concat ((readTarget g s).extractLsb' 0 7) false, (readTarget g s).getLsbD 7),
       (Instr.rorOper g, .ror g.acc?, BitVec.cons (s.flag .C) ((readTarget g s).extractLsb' 1 7), (readTarget g s).getLsbD 0),
       (Instr.rolOper g, .rol g.acc?, BitVec.concat ((readTarget g s).extractLsb' 0 7) (s.flag .C),
         (readTarget g s).getLsbD 7)] →
    ∃ t, exec i s = .next t ∧ Takes g s t r ∧ ShiftFlags t r out ∧
      Kept s t g.accs [] (s.writes w [.N, .Z, .V, .C]) (g.bytes s) ∧ Falls s t

/-- BSET and BCLR (R152, R153). That N and Z describe the value written is D22 (entry 24). A store takes effect where there is
RAM (D7, entry 22). Which instructions write H is the parameter `H_WRITERS` (D10, entry 9). -/
def Obligations.SetClearBits : Prop :=
  ∀ (m : MemOp) (mask : Byte) (s : State), s.Inv →
    (∃ t, exec (.bset m mask) s = .next t ∧ Stored s t (ea m s) (s.read8 (ea m s) ||| mask) ∧
      LogicFlags t (s.read8 (ea m s) ||| mask) ∧ Kept s t [] [] (s.writes .bset [.N, .Z, .V]) [ea m s] ∧ Falls s t) ∧
    (∃ t, exec (.bclr m mask) s = .next t ∧ Stored s t (ea m s) (s.read8 (ea m s) &&& ~~~mask) ∧
      LogicFlags t (s.read8 (ea m s) &&& ~~~mask) ∧ Kept s t [] [] (s.writes .bclr [.N, .Z, .V]) [ea m s] ∧ Falls s t)

/-- SXTB and SXTL (R166, R167). Which instructions write H is the parameter `H_WRITERS` (D10, entry 9). -/
def Obligations.SignExtend : Prop :=
  ∀ s : State,
    (∃ t, exec .sxtb s = .next t ∧ t.a = (if s.b.getLsbD 7 then 0xFF else 0x00) ∧ t.b = s.b ∧
      (t.dbl .D).toInt = s.b.toInt ∧ t.flag .N = s.b.getLsbD 7 ∧ t.flag .Z = decide (s.b = 0) ∧ t.flag .V = false ∧
      t.flag .C = false ∧ Kept s t [.A] [] (s.writes .sxtb [.N, .Z, .V, .C]) [] ∧ Falls s t) ∧
    (∃ t, exec .sxtl s = .next t ∧ t.h = (if s.l.getLsbD 7 then 0xFF else 0x00) ∧ t.l = s.l ∧
      (t.dbl .E).toInt = s.l.toInt ∧ t.flag .N = s.l.getLsbD 7 ∧ t.flag .Z = decide (s.l = 0) ∧ t.flag .V = false ∧
      t.flag .C = false ∧ Kept s t [.H] [] (s.writes .sxtl [.N, .Z, .V, .C]) [] ∧ Falls s t)

/-- MUL and MED (R168, R199). C after MUL is the parameter `MUL_C`, the M68HC11's being bit 7 of the product (D12, entry 12);
that MED keeps 16 bits is D12 (entry 13), and nothing is said of its C, which is free. Which instructions write H is the
parameter `H_WRITERS` (D10, entry 9). -/
def Obligations.MultiplyRegisters : Prop :=
  (∀ s : State, ∃ t, exec .mul s = .next t ∧ (t.dbl .D).toNat = s.a.toNat * s.b.toNat ∧
    (s.cfg.mulC = .m68hc11 → t.flag .C = (t.dbl .D).getLsbD 7) ∧ Kept s t [.A, .B] [] (s.writes .mul [.C]) [] ∧ Falls s t) ∧
  (∀ s : State, ∃ t, exec .med s = .next t ∧ (t.dbl .D).toNat = (s.dbl .D).toNat * (s.dbl .E).toNat % 65536 ∧
    Kept s t [.A, .B] [] (s.writes .med [.C]) [] ∧ Falls s t)

/-- DAA (R169): it always completes; where A, C and H are what an addition of BCD bytes leaves and `DAA_FN` is the M68HC11's
(D11, entry 10), the result and the carry are that adjustment's. V is free (entry 11), and so is the result elsewhere. Which
instructions write H is the parameter `H_WRITERS` (D10, entry 9). -/
def Obligations.DecimalAdjust : Prop :=
  ∀ s : State, ∃ t, exec .daa s = .next t ∧ t.NZof t.a ∧
    (s.cfg.daaFn = .m68hc11 → daaDefined s.a (s.flag .C) (s.flag .H) = true →
      t.a = (daaDefault s.a (s.flag .C) (s.flag .H)).1 ∧ t.flag .C = (daaDefault s.a (s.flag .C) (s.flag .H)).2) ∧
    Kept s t [.A] [] (s.writes .daa [.N, .Z, .V, .C]) [] ∧ Falls s t

/-- After ADDA, ADCA or ABA on decimal operands DAA leaves the decimal sum in A with its hundred in C (R169, R345), where the
addition writes H (`H_WRITERS`, D10, entry 9) and `DAA_FN` is the M68HC11's (D11, entry 10). -/
def Obligations.DecimalSum : Prop :=
  ∀ s : State, s.cfg.daaFn = .m68hc11 → isBcd s.a →
    (∀ o : Src8, .add .A ∈ s.cfg.hWriters → isBcd (oper8 o s) →
      ∃ t u, exec (.adda o) s = .next t ∧ exec .daa t = .next u ∧ isBcd u.a ∧
        100 * (u.flag .C).toNat + bcdValue u.a = bcdValue s.a + bcdValue (oper8 o s)) ∧
    (∀ o : Src8, .adc .A ∈ s.cfg.hWriters → isBcd (oper8 o s) →
      ∃ t u, exec (.adca o) s = .next t ∧ exec .daa t = .next u ∧ isBcd u.a ∧
        100 * (u.flag .C).toNat + bcdValue u.a = bcdValue s.a + bcdValue (oper8 o s) + (s.flag .C).toNat) ∧
    (.aba ∈ s.cfg.hWriters → isBcd s.b →
      ∃ t u, exec .aba s = .next t ∧ exec .daa t = .next u ∧ isBcd u.a ∧
        100 * (u.flag .C).toNat + bcdValue u.a = bcdValue s.a + bcdValue s.b)

/-! ## CCR operations and the interrupt mask -/

/-- CLC, SEC, CLV, SEV (R180 to R183). -/
def Obligations.CarryOverflowFlags : Prop :=
  ∀ (i : Instr) (f : Flag) (v : Bool),
    (i, f, v) ∈ [(.clc, .C, false), (.sec, .C, true), (.clv, .V, false), (.sev, .V, true)] →
    ∀ s : State, ∃ t, exec i s = .next t ∧ t.flag f = v ∧ Kept s t [] [] [f] [] ∧ Falls s t

/-- CLI, SEI, TAP, TPA (R275, R276, R184, R185). That the new I counts at the very next boundary is D20 (entry 18), that TAP
writes bit 6 too D14 (entry 15). -/
def Obligations.MaskAndTransfer : Prop :=
  (∀ (i : Instr) (v : Bool), (i, v) ∈ [(.cli, false), (.sei, true)] →
    ∀ s : State, ∃ t, exec i s = .next t ∧ t.flag .I = v ∧ Kept s t [] [] [.I] [] ∧ Falls s t ∧
      t.acceptsIrq = (s.input.irq && !v)) ∧
  (∀ s : State,
    (∃ t, exec .tap s = .next t ∧ t.ccr = s.a ∧ Kept s t [] [] [.S, .X, .H, .I, .N, .Z, .V, .C] [] ∧ Falls s t) ∧
    (∃ t, exec .tpa s = .next t ∧ t.a = s.ccr ∧ Kept s t [.A] [] [] [] ∧ Falls s t))

/-- Only TAP and RTI write S and X; only they and the instructions in `H_WRITERS` write H (R17 to R19). What `H_WRITERS` has
is a parameter (D10, U7, entry 9). -/
def Obligations.SpecialFlagWriters : Prop :=
  ∀ (i : Instr) (s t : State), exec i s = .next t →
    (t.flag .S ≠ s.flag .S ∨ t.flag .X ≠ s.flag .X → i = .tap ∨ i = .rti) ∧
    (t.flag .H ≠ s.flag .H → i = .tap ∨ i = .rti ∨ ∃ w ∈ s.cfg.hWriters, i.hWriter = some w)

/-- Interrupts, once disabled, are enabled only by CLI, TAP or RTI: no other step clears I (R20, R302). That the new I counts
at the very next boundary is D20 (entry 18). -/
def Obligations.MaskClearedOnlyBy : Prop :=
  ∀ s t : State, step s = .next t → s.flag .I = true → t.flag .I = false →
    s.run = .running ∧ (s.fetch.1 = .cli ∨ s.fetch.1 = .tap ∨ s.fetch.1 = .rti)

/-! ## 16-bit accumulators -/

/-- LD d, LD x, LDS (R190, R210, R225): the operand is read with the old registers, and S takes the value as it is.
That N and Z describe the whole word is D22 (entry 24). -/
def Obligations.LoadWord : Prop :=
  (∀ (d : Dbl) (o : Src16) (s : State), ∃ t, exec (Instr.ldDbl d o) s = .next t ∧
    t.dbl d = oper16 o s ∧ LogicFlags t (oper16 o s) ∧ Kept s t d.halves [] [.N, .Z, .V] [] ∧ Falls s t) ∧
  (∀ (r : IReg) (o : Src16) (s : State), ∃ t, exec (Instr.ldIndex r o) s = .next t ∧
    t.ireg r = oper16 o s ∧ LogicFlags t (oper16 o s) ∧ Kept s t [] [r] [.N, .Z, .V] [] ∧ Falls s t) ∧
  (∀ (o : Src16) (s : State), ∃ t, exec (.lds o) s = .next t ∧
    t.sp = oper16 o s ∧ LogicFlags t (oper16 o s) ∧ t.pc = s.pc ∧ Kept s t [] [] [.N, .Z, .V] [] ∧ SameControl s t)

/-- STD, STE, STX, STY, STZ, STS (R191, R211, R226): the high byte at the address, the low byte after it. That N and Z
describe the value stored is D22 (entry 24). A store takes effect where there is RAM (D7, entry 22). -/
def Obligations.StoreWord : Prop :=
  ∀ (m : MemOp) (s : State), s.Inv → ∀ (i : Instr) (v : Word),
    (i, v) ∈ [(.std m, s.dbl .D), (.ste m, s.dbl .E), (.stx m, s.x), (.sty m, s.y), (.stz m, s.z), (.sts m, s.sp)] →
    ∃ t, exec i s = .next t ∧ Stored s t (ea m s) (hiByte v) ∧ Stored s t (ea m s + 1) (loByte v) ∧ LogicFlags t v ∧
      Kept s t [] [] [.N, .Z, .V] [ea m s, ea m s + 1] ∧ Falls s t

/-- ADD d, SUB d, AED, SED (R193, R194, R196, R197). That N and Z describe the whole word is D22 (entry 24), that C after SUB
d and SED is the borrow D25 (entry 25). Which instructions write H is the parameter `H_WRITERS` (D10, entry 9). -/
def Obligations.ArithmeticDouble : Prop :=
  (∀ (d : Dbl) (o : Src16) (s : State), ∃ t, exec (Instr.addDbl d o) s = .next t ∧
    t.dbl d = s.dbl d + oper16 o s ∧ AddFlags t (s.dbl d) (oper16 o s) (s.dbl d + oper16 o s) false ∧
    Kept s t d.halves [] (s.writes (.addDbl d) [.N, .Z, .V, .C]) [] ∧ Falls s t) ∧
  (∀ s : State, ∃ t, exec .aed s = .next t ∧
    t.dbl .D = s.dbl .D + s.dbl .E ∧ AddFlags t (s.dbl .D) (s.dbl .E) (s.dbl .D + s.dbl .E) false ∧
    Kept s t [.A, .B] [] (s.writes .aed [.N, .Z, .V, .C]) [] ∧ Falls s t) ∧
  (∀ (d : Dbl) (o : Src16) (s : State), ∃ t, exec (Instr.subDbl d o) s = .next t ∧
    t.dbl d = s.dbl d - oper16 o s ∧ SubFlags t (s.dbl d) (oper16 o s) (s.dbl d - oper16 o s) false ∧
    Kept s t d.halves [] (s.writes (.subDbl d) [.N, .Z, .V, .C]) [] ∧ Falls s t) ∧
  (∀ s : State, ∃ t, exec .sed s = .next t ∧
    t.dbl .D = s.dbl .D - s.dbl .E ∧ SubFlags t (s.dbl .D) (s.dbl .E) (s.dbl .D - s.dbl .E) false ∧
    Kept s t [.A, .B] [] (s.writes .sed [.N, .Z, .V, .C]) [] ∧ Falls s t)

/-- XGDE (R192). Which of the two N and Z describe is the parameter `XGDE_FLAGS_FROM` (D13, entry 14). -/
def Obligations.ExchangeDoubles : Prop :=
  ∀ s : State, ∃ t, exec .xgde s = .next t ∧ t.dbl .D = s.dbl .E ∧ t.dbl .E = s.dbl .D ∧
    LogicFlags t (if s.cfg.xgdeFlagsFrom = .newD then t.dbl .D else t.dbl .E) ∧
    Kept s t [.A, .B, .H, .L] [] [.N, .Z, .V] [] ∧ Falls s t

/-- XGDX to XGEZ (R214): no flag. -/
def Obligations.ExchangeIndex : Prop :=
  ∀ (d : Dbl) (r : IReg) (s : State), ∃ t, exec (Instr.xgIndex d r) s = .next t ∧
    t.dbl d = s.ireg r ∧ t.ireg r = s.dbl d ∧ Kept s t d.halves [r] [] [] ∧ Falls s t

/-- LSR d, ASR d, ASL d, with the result written bit by bit as in the table of R118 (R200 to R202). That N and Z describe the
whole word is D22 (entry 24). Which instructions write H is the parameter `H_WRITERS` (D10, entry 9). -/
def Obligations.ShiftDouble : Prop :=
  ∀ (d : Dbl) (s : State) (i : Instr) (w : Config.HWriter) (r : Word) (out : Bool),
    (i, w, r, out) ∈
      [(Instr.lsrDbl d, .lsrDbl d, BitVec.cons false ((s.dbl d).extractLsb' 1 15), (s.dbl d).getLsbD 0),
       (Instr.asrDbl d, .asrDbl d, BitVec.cons (s.dbl d).msb ((s.dbl d).extractLsb' 1 15), (s.dbl d).getLsbD 0),
       (Instr.aslDbl d, .aslDbl d, BitVec.concat ((s.dbl d).extractLsb' 0 15) false, (s.dbl d).getLsbD 15)] →
    ∃ t, exec i s = .next t ∧ t.dbl d = r ∧ ShiftFlags t r out ∧ Kept s t d.halves [] (s.writes w [.N, .Z, .V, .C]) [] ∧
      Falls s t

/-! ## Pointers and the stack pointer -/

/-- INX to INZ and DEX to DEZ (R216, R217): Z, while N, V and C are kept. Which instructions write H is the parameter
`H_WRITERS` (D10, entry 9). -/
def Obligations.CountIndex : Prop :=
  ∀ (r : IReg) (s : State),
    (∃ t, exec (Instr.inIndex r) s = .next t ∧ t.ireg r = s.ireg r + 1 ∧
      t.flag .Z = decide (s.ireg r + 1 = 0) ∧ Kept s t [] [r] (s.writes (.inIndex r) [.Z]) [] ∧ Falls s t) ∧
    (∃ t, exec (Instr.deIndex r) s = .next t ∧ t.ireg r = s.ireg r - 1 ∧
      t.flag .Z = decide (s.ireg r - 1 = 0) ∧ Kept s t [] [r] (s.writes (.deIndex r) [.Z]) [] ∧ Falls s t)

/-- ADDX to ADDZ and ABX to ABZ (R218, R219): no flag. -/
def Obligations.AddToIndex : Prop :=
  (∀ (r : IReg) (o : Src16) (s : State), ∃ t, exec (Instr.addIndex r o) s = .next t ∧
    t.ireg r = s.ireg r + oper16 o s ∧ Kept s t [] [r] [] [] ∧ Falls s t) ∧
  (∀ (r : IReg) (s : State), ∃ t, exec (Instr.abIndex r) s = .next t ∧
    (t.ireg r).toNat = ((s.ireg r).toNat + s.b.toNat) % 65536 ∧ Kept s t [] [r] [] [] ∧ Falls s t)

/-- TSX to TSZ, TXS to TZS, INS, DES (R227 to R230): no flag. That S and the index registers wrap is D3 (entry 7). -/
def Obligations.StackPointerMoves : Prop :=
  (∀ (r : IReg) (s : State),
    (∃ t, exec (Instr.tsIndex r) s = .next t ∧ t.ireg r = s.sp + 1 ∧ Kept s t [] [r] [] [] ∧ Falls s t) ∧
    (∃ t, exec (Instr.tIndexS r) s = .next t ∧ t.sp = s.ireg r - 1 ∧ t.pc = s.pc ∧ Kept s t [] [] [] [] ∧
      SameControl s t)) ∧
  (∀ s : State,
    (∃ t, exec .ins s = .next t ∧ t.sp = s.sp + 1 ∧ t.pc = s.pc ∧ Kept s t [] [] [] [] ∧ SameControl s t) ∧
    (∃ t, exec .des s = .next t ∧ t.sp = s.sp - 1 ∧ t.pc = s.pc ∧ Kept s t [] [] [] [] ∧ SameControl s t))

/-! ## Control flow -/

/-- NOP, JMP, BRA (R240, R241, R245). `ea` and `target` are as `EffectiveAddress` says, for every base of the relative modes
(D4, entry 8). -/
def Obligations.JumpBranchNop : Prop :=
  (∀ s : State, exec .nop s = .next s) ∧
  (∀ (m : MemOp) (s : State), ∃ t, exec (.jmp m) s = .next t ∧ t.pc = ea m s ∧ t.sp = s.sp ∧
    Kept s t [] [] [] [] ∧ SameControl s t) ∧
  (∀ (off : Byte) (s : State), ∃ t, exec (.bra off) s = .next t ∧ t.pc = target off s ∧ t.sp = s.sp ∧
    Kept s t [] [] [] [] ∧ SameControl s t)

/-- JSR and BSR (R242, R244): `Next_PC` is stacked, high byte at the lower address. `ea` and `target` are as
`EffectiveAddress` says, for every base of the relative modes (D4, entry 8). A store takes effect where there is RAM (D7,
entry 22). -/
def Obligations.CallSubroutine : Prop :=
  ∀ (s : State), s.Inv → ∀ (i : Instr) (dest : Word),
    ((∃ m, i = .jsr m ∧ dest = ea m s) ∨ (∃ off, i = .bsr off ∧ dest = target off s)) →
    ∃ t, exec i s = .next t ∧ t.pc = dest ∧ Stored s t s.sp (loByte s.pc) ∧ Stored s t (s.sp - 1) (hiByte s.pc) ∧
      t.sp = s.sp - 2 ∧ Kept s t [] [] [] [s.sp, s.sp - 1] ∧ SameControl s t

/-- RTS (R243). -/
def Obligations.ReturnFromSubroutine : Prop :=
  ∀ s : State, ∃ t, exec .rts s = .next t ∧ t.pc = s.read8 (s.sp + 1) ++ s.read8 (s.sp + 2) ∧ t.sp = s.sp + 2 ∧
    Kept s t [] [] [] [] ∧ SameControl s t

/-- A subroutine that returns at once, with the stack in RAM: RTS after JSR or BSR goes on after the call, every register and
flag is as before, and of memory only the two stacked bytes have changed (R242 to R244, R266). What the memory map has is D7
(entry 22). -/
def Obligations.CallThenReturn : Prop :=
  ∀ s : State, s.Inv → s.writable s.sp = true → s.writable (s.sp - 1) = true →
    ∀ i : Instr, ((∃ m, i = .jsr m) ∨ ∃ off, i = .bsr off) →
      ∃ t, exec i s = .next t ∧ exec .rts t = .next { s with mem := t.mem } ∧
        ∀ p, p ∉ [s.sp, s.sp - 1] → t.mem.read p = s.mem.read p

/-- The branches on one flag (R246, R249 to R256). That BMI and BPL test N is C1 (entry 38); `target` is as
`EffectiveAddress` says, for every base (D4, entry 8). -/
def Obligations.FlagBranches : Prop :=
  ∀ (i : Instr) (off : Byte) (s : State) (cond : Bool),
    (i, cond) ∈
      [(.bmi off, s.flag .N), (.bpl off, !s.flag .N), (.beq off, s.flag .Z), (.bne off, !s.flag .Z),
       (.bcs off, s.flag .C), (.bcc off, !s.flag .C), (.bvs off, s.flag .V), (.bvc off, !s.flag .V)] →
    ∃ t, exec i s = .next t ∧ t.pc = (if cond then target off s else s.pc) ∧ t.sp = s.sp ∧
      Kept s t [] [] [] [] ∧ SameControl s t

/-- The branches on a comparison (R246, R257 to R264). That the comparison in their conditions applies to the whole left side
is C12 (entry 38); `target` is as `EffectiveAddress` says, for every base (D4, entry 8). -/
def Obligations.ComparisonBranches : Prop :=
  ∀ (i : Instr) (off : Byte) (s : State) (cond : Bool),
    (i, cond) ∈
      [(.bgt off, !(s.flag .Z || (s.flag .N ^^ s.flag .V))), (.blt off, s.flag .N ^^ s.flag .V),
       (.bge off, !(s.flag .N ^^ s.flag .V)), (.ble off, s.flag .Z || (s.flag .N ^^ s.flag .V)),
       (.bhi off, !(s.flag .C || s.flag .Z)), (.blo off, s.flag .C), (.bhs off, !s.flag .C),
       (.bls off, s.flag .C || s.flag .Z)] →
    ∃ t, exec i s = .next t ∧ t.pc = (if cond then target off s else s.pc) ∧ t.sp = s.sp ∧
      Kept s t [] [] [] [] ∧ SameControl s t

/-- After any comparison the comparison branches tell how the operands compare, as signed and as unsigned numbers (R265). It
rests on C being the borrow (D25, entry 25), on the reading of the conditions of BGT, BLE, BHI and BLS (C12, entry 38), and on
the 16-bit N and Z (D22, entry 24); where a branch goes is `target`, for every base (D4, entry 8). -/
def Obligations.ComparisonMeaning : Prop :=
  (∀ (a : Acc) (o : Src8) (s : State), ∃ t, exec (Instr.cmpAcc a o) s = .next t ∧ ComparesAs t (s.acc a) (oper8 o s)) ∧
  (∀ s : State, ∃ t, exec .cba s = .next t ∧ ComparesAs t s.a s.b) ∧
  (∀ s : State, ∃ t, exec .clh s = .next t ∧ ComparesAs t s.h s.l) ∧
  (∀ (d : Dbl) (o : Src16) (s : State), ∃ t, exec (Instr.cmpDbl d o) s = .next t ∧
    ComparesAs t (s.dbl d) (oper16 o s)) ∧
  (∀ s : State, ∃ t, exec .ced s = .next t ∧ ComparesAs t (s.dbl .D) (s.dbl .E)) ∧
  (∀ (r : IReg) (o : Src16) (s : State), ∃ t, exec (Instr.cpIndex r o) s = .next t ∧
    ComparesAs t (s.ireg r) (oper16 o s))

/-- BRSET and BRCLR (R247, R248): taken exactly if every bit the mask selects is set, or is clear, in the operand, which is
not written. The polarity is C2 (entry 38); `ea` and `target` are as `EffectiveAddress` says, for every base (D4, entry 8). -/
def Obligations.BitTestBranches : Prop :=
  ∀ (m : MemOp) (mask off : Byte) (s : State),
    (∃ t, exec (.brset m mask off) s = .next t ∧
      ((∀ k < 8, mask.getLsbD k = true → (s.read8 (ea m s)).getLsbD k = true) → t.pc = target off s) ∧
      ((∃ k < 8, mask.getLsbD k = true ∧ (s.read8 (ea m s)).getLsbD k = false) → t.pc = s.pc) ∧
      t.sp = s.sp ∧ Kept s t [] [] [] [] ∧ SameControl s t) ∧
    (∃ t, exec (.brclr m mask off) s = .next t ∧
      ((∀ k < 8, mask.getLsbD k = true → (s.read8 (ea m s)).getLsbD k = false) → t.pc = target off s) ∧
      ((∃ k < 8, mask.getLsbD k = true ∧ (s.read8 (ea m s)).getLsbD k = true) → t.pc = s.pc) ∧
      t.sp = s.sp ∧ Kept s t [] [] [] [] ∧ SameControl s t)

/-! ## Interrupts, traps, waiting, stopping -/

/-- SWI, IDIV, FDIV and an unrecognised code take the interrupt acknowledge phase with `Next_PC` as return address, whatever I
is: thirteen bytes are stacked, then I is set and PC loaded from the vector location (R277, R203, R204, R304 to R308).
`Next_PC` of an unrecognised code is D17 (entry 5), where the vectors lie is D2 (entry 6). A store takes effect where there is
RAM (D7, entry 22). -/
def Obligations.SoftwareTraps : Prop :=
  ∀ (i : Instr) (vec : Word),
    (i, vec) ∈ [(.swi, Config.swiVectorLoc), (.idiv, Config.emuVectorLoc), (.fdiv, Config.emuVectorLoc),
      (.unrecognised, Config.emuVectorLoc)] →
    ∀ s : State, s.Inv → ∃ t, exec i s = .next t ∧ FrameStored s t s.pc ∧ t.sp = s.sp - 13 ∧
      t.pc = t.read8 vec ++ t.read8 (vec + 1) ∧ t.flag .I = true ∧ t.run = .running ∧
      Kept s t [] [] [.I] (frameAddrs s.sp) ∧ SameModel s t

/-- WAI (R278): the frame is stacked at once with `Next_PC`, I is left as it is, and the machine waits. That I is set only
when the interrupt is taken is D26 (entry 26). A store takes effect where there is RAM (D7, entry 22). -/
def Obligations.WaitForInterrupt : Prop :=
  ∀ s : State, s.Inv → ∃ t, exec .wai s = .next t ∧ FrameStored s t s.pc ∧ t.run = .waiting ∧ t.sp = s.sp - 13 ∧
    t.pc = s.pc ∧ Kept s t [] [] [] (frameAddrs s.sp) ∧ SameModel s t

/-- RTI (R279): CCR, B, A, X, Y, the return address, L, H, Z are pulled in this order. -/
def Obligations.ReturnFromInterrupt : Prop :=
  ∀ s : State, ∃ t, exec .rti s = .next t ∧ t.ccr = s.read8 (s.sp + 1) ∧ t.b = s.read8 (s.sp + 2) ∧
    t.a = s.read8 (s.sp + 3) ∧ t.x = s.read8 (s.sp + 4) ++ s.read8 (s.sp + 5) ∧
    t.y = s.read8 (s.sp + 6) ++ s.read8 (s.sp + 7) ∧ t.pc = s.read8 (s.sp + 8) ++ s.read8 (s.sp + 9) ∧
    t.l = s.read8 (s.sp + 10) ∧ t.h = s.read8 (s.sp + 11) ∧ t.z = s.read8 (s.sp + 12) ++ s.read8 (s.sp + 13) ∧
    t.sp = s.sp + 13 ∧ (∀ p, t.mem.read p = s.mem.read p) ∧ t.cfg = s.cfg ∧ SameControl s t

/-- STOP (R280): with S set nothing, with S clear the machine stops; stopped, it does nothing whatever the interrupt signal
and I are, until reset is asserted. After reset S is set. That a stopped step consumes its inputs and its draw and changes
nothing else is D21 (entries 16, 27, 37), that reset is sampled at the step is D24 (entry 29). -/
def Obligations.StopInstruction : Prop :=
  (∀ s : State, s.flag .S = true → exec .stop s = .next s) ∧
  (∀ s : State, s.flag .S = false → ∃ t, exec .stop s = .next t ∧ t.run = .stopped ∧ t.sp = s.sp ∧ t.pc = s.pc ∧
    Kept s t [] [] [] [] ∧ SameModel s t) ∧
  (∀ s : State, s.run = .stopped → s.input.reset = false →
    step s = .next { s with inputs := s.inputs.tail, draws := s.draws + 1 }) ∧
  (∀ s : State, s.run = .stopped → s.input.reset = true → ∃ t, step s = .next t ∧ t.run = .running) ∧
  State.reset.flag .S = true

/-- A waiting machine (R316): with reset low, it takes the hardware vector and sets I if an interrupt is requested and I is
clear, stacking nothing; else it goes on waiting and nothing changes but that the step's inputs and draw are consumed. That I
is set when the interrupt is taken is D26 (entry 26), that the request is level-sensitive D15 (entry 16), that an idle step
changes nothing else D21 (entries 27, 37). -/
def Obligations.WaitingMachine : Prop :=
  ∀ s : State, s.run = .waiting → s.input.reset = false →
    (s.input.irq = true → s.flag .I = false → ∃ t, step s = .next t ∧ t.run = .running ∧ t.flag .I = true ∧
      t.pc = t.read8 Config.hwiVectorLoc ++ t.read8 (Config.hwiVectorLoc + 1) ∧ t.sp = s.sp ∧
      Kept s t [] [] [.I] [] ∧ SameModel s.sampled t) ∧
    ((s.input.irq = false ∨ s.flag .I = true) →
      step s = .next { s with inputs := s.inputs.tail, draws := s.draws + 1 })

/-- A running machine accepts a hardware interrupt before the instruction at PC if one is requested, I is clear and reset is
low: the acknowledge phase with PC as return address (R302 to R305). That the request is level-sensitive is D15 (entry 16),
that reset comes first D16 (entry 17). A store takes effect where there is RAM (D7, entry 22). -/
def Obligations.HardwareInterrupt : Prop :=
  ∀ s : State, s.Inv → s.run = .running → s.input.reset = false → s.input.irq = true → s.flag .I = false →
    ∃ t, step s = .next t ∧ FrameStored s t s.pc ∧ t.sp = s.sp - 13 ∧
      t.pc = t.read8 Config.hwiVectorLoc ++ t.read8 (Config.hwiVectorLoc + 1) ∧ t.flag .I = true ∧ t.run = .running ∧
      Kept s t [] [] [.I] (frameAddrs s.sp) ∧ SameModel s.sampled t

/-- With the stack in RAM, RTI undoes every acknowledge phase: after SWI, IDIV, FDIV, an unrecognised code, a hardware
interrupt, or WAI and the interrupt it waited for, it restores every register and flag and resumes at the return address; of
memory only the thirteen stacked bytes have changed (R311, R312). That WAI leaves I as it is, so that the interrupt is taken,
is D26 (entry 26), that the request is level-sensitive D15 (entry 16), that it is accepted at once D20 (entry 18). What the
memory map has is D7 (entry 22). -/
def Obligations.InterruptThenReturn : Prop :=
  ∀ s : State, s.Inv → (∀ p ∈ frameAddrs s.sp, s.writable p = true) →
    (∀ i ∈ [Instr.swi, .idiv, .fdiv, .unrecognised], ∃ t, exec i s = .next t ∧
      exec .rti t = .next { s with mem := t.mem, run := .running } ∧
      ∀ p, p ∉ frameAddrs s.sp → t.mem.read p = s.mem.read p) ∧
    (s.run = .running → s.input.reset = false → s.input.irq = true → s.flag .I = false →
      ∃ t, step s = .next t ∧
        exec .rti t = .next { s with mem := t.mem, inputs := s.inputs.tail, draws := s.draws + 1 } ∧
        ∀ p, p ∉ frameAddrs s.sp → t.mem.read p = s.mem.read p) ∧
    (s.input.reset = false → s.input.irq = true → s.flag .I = false →
      ∃ t u, exec .wai s = .next t ∧ step t = .next u ∧
        exec .rti u =
          .next { s with mem := u.mem, run := .running, inputs := s.inputs.tail, draws := s.draws + 1 } ∧
        ∀ p, p ∉ frameAddrs s.sp → u.mem.read p = s.mem.read p)

/-! ## Reset and the step -/

/-- Reset asserted: the reset sequence, in every run state and whatever the interrupt signal is (R341, R343). That reset is
sampled at the boundary is D24 (entry 29), that it comes first D16 (entry 17). A, B, H, L, X, Y, Z and S are free values
(entry 19) and nothing is said of them. -/
def Obligations.ResetStep : Prop :=
  ∀ s : State, s.input.reset = true → ∃ t, step s = .next t ∧ t.ccr = 0xFF ∧
    t.pc = t.read8 Config.resetVectorLoc ++ t.read8 (Config.resetVectorLoc + 1) ∧ t.run = .running ∧
    t.mem = s.mem ∧ t.cfg = s.cfg ∧ SameModel s.sampled t

/-- `State.reset` is as the reset sequence leaves the machine, where the spec says how: every flag set, PC from the reset
vector, running (R30, R342). Its other registers are the model's choice (entry 20) and nothing is said of them. -/
def Obligations.ResetState : Prop :=
  (∀ f, State.reset.flag f = true) ∧
  State.reset.pc = State.reset.read8 Config.resetVectorLoc ++ State.reset.read8 (Config.resetVectorLoc + 1) ∧
  State.reset.run = .running

/-- Memory is in canonical form at reset; the form is the model's (entry 21). -/
def Obligations.ResetInvariant : Prop := State.reset.Inv

/-- Whatever a step is, an instruction, an interrupt or a reset, it keeps memory in canonical form (entry 21), the
configuration (entry 43), and every byte that is not RAM (R48, `MemMap`, D7, entry 22). -/
def Obligations.StepKeepsInvariant : Prop :=
  ∀ s t : State, s.Inv → step s = .next t →
    t.Inv ∧ t.cfg = s.cfg ∧ ∀ p, s.writable p = false → t.mem.read p = s.mem.read p

/-- No state stops the machine: every step answers a next state. DEDUCED (entry 36): R300 takes its list of events as closed,
R52 names no memory fault, and every code decodes (R82). -/
def Obligations.StepAlwaysContinues : Prop := ∀ s : State, ∃ t, step s = .next t

/-- With no reset asserted, the machine running and no interrupt accepted, the step executes the instruction that the bytes at
PC decode to under the `OPC` of the configuration (entry 1), with PC at the address after it, this step's inputs and draw
consumed (entries 16, 27), and the model's record of where the instruction lies made (entry 44) (R100, R315). -/
def Obligations.StepRunsDecoded : Prop :=
  ∀ (s : State) (i : Instr) (n : Nat), s.input.reset = false → s.run = .running →
    (s.input.irq = false ∨ s.flag .I = true) →
    decode s.cfg.opc (fun k => s.fetch8 (s.pc + BitVec.ofNat 16 k)) = (i, n) →
    step s = exec i { s with
      inputs := s.inputs.tail, draws := s.draws + 1, pc := s.pc + BitVec.ofNat 16 n, opcodeAt := s.pc
      operandAt := s.pc + BitVec.ofNat 16 n - BitVec.ofNat 16 i.operandLen }

end
end

