-- ==== Sys2Proof/Laws/Bits.lean ====
section
/-! SUPPORT. The two bytes of a word and the word of two bytes. -/

namespace Sys2Proof.Machine

@[simp] theorem hiByte_join (p q : Byte) : hiByte (join p q) = p := by
  apply BitVec.eq_of_getLsbD_eq
  intro i hi
  simp only [hiByte, join, BitVec.getLsbD_extractLsb', BitVec.getLsbD_append]
  simp [hi]

@[simp] theorem loByte_join (p q : Byte) : loByte (join p q) = q := by
  apply BitVec.eq_of_getLsbD_eq
  intro i hi
  simp only [loByte, join, BitVec.getLsbD_extractLsb', BitVec.getLsbD_append]
  simp [hi]

@[simp] theorem join_hiByte_loByte (v : Word) : join (hiByte v) (loByte v) = v := by
  apply BitVec.eq_of_getLsbD_eq
  intro i hi
  simp only [hiByte, loByte, join, BitVec.getLsbD_extractLsb', BitVec.getLsbD_append]
  by_cases h : i < 8
  · simp [h]
  · have h8 : i - 8 < 8 := by omega
    have e : 8 + (i - 8) = i := by omega
    simp [h, h8, e]

end Sys2Proof.Machine
end

