-- ==== Sys2Proof/Laws/Decode.lean ====
section
/-! SUPPORT. Reading and writing object code: what the bytes of a list say at a reader's start, what a known code decodes to, and
that the operand bytes of an operand read back as it. -/

namespace Sys2Proof

open Sys2Proof.Machine (join hiByte loByte join_hiByte_loByte)

theorem startsWith_nil (rd : Nat → Byte) : StartsWith rd [] := fun _ h => absurd h (Nat.not_lt_zero _)

theorem startsWith_cons (rd : Nat → Byte) (b : Byte) (bs : List Byte) :
    StartsWith rd (b :: bs) ↔ rd 0 = b ∧ StartsWith (fun k => rd (k + 1)) bs := by
  constructor
  · intro h
    exact ⟨h 0 (by simp), fun k hk => h (k + 1) (by simpa using hk)⟩
  · rintro ⟨h0, h⟩ k hk
    cases k with
    | zero => exact h0
    | succ k => exact h k (by simpa using hk)

theorem startsWith_append (rd : Nat → Byte) (bs cs : List Byte) :
    StartsWith rd (bs ++ cs) ↔ StartsWith rd bs ∧ StartsWith (fun k => rd (bs.length + k)) cs := by
  induction bs generalizing rd with
  | nil => simp [startsWith_nil]
  | cons b bs ih =>
    rw [List.cons_append, startsWith_cons, ih, startsWith_cons, and_assoc]
    simp [Nat.add_comm, Nat.add_left_comm]

theorem startsWith_bytesOf (bs : List Byte) : StartsWith (bytesOf bs) bs := fun k h => by
  simp [bytesOf, List.getElem?_eq_getElem h]

/-! ## Operands -/

theorem MemOp.bytes_length (m : MemOp) : m.bytes.length = m.len := by cases m <;> rfl

theorem Src8.bytes_length (o : Src8) : o.bytes.length = o.len := by
  cases o with
  | imm v => rfl
  | mem m => exact m.bytes_length

theorem Src16.bytes_length (o : Src16) : o.bytes.length = o.len := by
  cases o with
  | imm v => rfl
  | mem m => exact m.bytes_length

/-- The bytes of a memory operand read back as it (R72, R74 to R77). -/
theorem MemOp.fill_bytes (m : MemOp) {f : Nat → Byte} (h : StartsWith f m.bytes) : m.fill f = m := by
  cases m <;> simp only [MemOp.bytes, startsWith_cons] at h <;> simp [MemOp.fill, h]

theorem Src8.fill_bytes (o : Src8) {f : Nat → Byte} (h : StartsWith f o.bytes) : o.fill f = o := by
  cases o with
  | imm v =>
    simp only [Src8.bytes, startsWith_cons] at h
    simp [Src8.fill, h]
  | mem m => exact congrArg Src8.mem (m.fill_bytes h)

theorem Src16.fill_bytes (o : Src16) {f : Nat → Byte} (h : StartsWith f o.bytes) : o.fill f = o := by
  cases o with
  | imm v =>
    simp only [Src16.bytes, startsWith_cons] at h
    simp [Src16.fill, h]
  | mem m => exact congrArg Src16.mem (m.fill_bytes h)

/-- The operand bytes of a filled operand are the bytes it was filled from (R72). -/
theorem MemOp.bytes_fill (m : MemOp) (f : Nat → Byte) : StartsWith f (m.fill f).bytes := by
  cases m <;> simp [MemOp.fill, MemOp.bytes, startsWith_cons, startsWith_nil]

theorem Src8.bytes_fill (o : Src8) (f : Nat → Byte) : StartsWith f (o.fill f).bytes := by
  cases o with
  | imm v => simp [Src8.fill, Src8.bytes, startsWith_cons, startsWith_nil]
  | mem m => exact m.bytes_fill f

theorem Src16.bytes_fill (o : Src16) (f : Nat → Byte) : StartsWith f (o.fill f).bytes := by
  cases o with
  | imm v => simp [Src16.fill, Src16.bytes, startsWith_cons, startsWith_nil]
  | mem m => exact m.bytes_fill f

@[simp] theorem MemOp.fill_len (m : MemOp) (f : Nat → Byte) : (m.fill f).len = m.len := by cases m <;> rfl

@[simp] theorem MemOp.fill_notZp (m : MemOp) (f : Nat → Byte) : (m.fill f).notZp = m.notZp := by cases m <;> rfl

@[simp] theorem Src16.fill_notZp (o : Src16) (f : Nat → Byte) : (o.fill f).notZp = o.notZp := by
  cases o with
  | imm v => rfl
  | mem m => exact m.fill_notZp f

/-! ## The code of a form does not depend on its operand values -/

@[simp] theorem memCode_fill (zp x dir y : List Byte) (m : MemOp) (f : Nat → Byte) :
    memCode zp x dir y (m.fill f) = memCode zp x dir y m := by
  rcases m with _ | _ | ⟨r, sg, _⟩ | _ <;> (try cases r) <;> (try cases sg) <;> rfl

@[simp] theorem singleCode_fill (n : Byte) (m : MemOp) (f : Nat → Byte) : singleCode n (m.fill f) = singleCode n m := by
  rcases m with _ | _ | ⟨r, sg, _⟩ | _ <;> (try cases r) <;> (try cases sg) <;> rfl

@[simp] theorem pairMemCode_fill (b n : Byte) (m : MemOp) (f : Nat → Byte) :
    pairMemCode b n (m.fill f) = pairMemCode b n m := by
  rcases m with _ | _ | ⟨r, sg, _⟩ | _ <;> (try cases r) <;> (try cases sg) <;> rfl

@[simp] theorem pairCode_fill (b n : Byte) (o : Src8) (f : Nat → Byte) : pairCode b n (o.fill f) = pairCode b n o := by
  cases o with
  | imm v => rfl
  | mem m => exact pairMemCode_fill b n m f

@[simp] theorem wideCode_fill (imm zp x dir y : List Byte) (o : Src16) (f : Nat → Byte) :
    wideCode imm zp x dir y (o.fill f) = wideCode imm zp x dir y o := by
  cases o with
  | imm v => rfl
  | mem m => exact memCode_fill zp x dir y m f

/-! ## Known codes -/

/-- Under the M68HC11's codes a known code decodes to its form with the operand bytes that follow it (R71, R72). -/
theorem decode_known {rd : Nat → Byte} {t : Instr} {n : Nat} (h : knownCode rd = some (t, n)) :
    decode .m68hc11 rd = withOperands t n rd := by
  simp [decode, opcode, h]

/-- A code of one byte (R84). -/
theorem knownCode_one {rd : Nat → Byte} {c : Byte} {t : Instr} (h : rd 0 = c) (h18 : c ≠ 0x18#8) (h1A : c ≠ 0x1A#8)
    (hCD : c ≠ 0xCD#8) (ht : oneByteCode c = some t) : knownCode rd = some (t, 1) := by
  simp [knownCode, h, h18, h1A, hCD, ht]

/-- A code after the prebyte 0x18 (R85). -/
theorem knownCode_18 {rd : Nat → Byte} {c : Byte} {t : Instr} (h : rd 0 = 0x18#8) (h' : rd 1 = c)
    (ht : onPage page18 c = some t) : knownCode rd = some (t, 2) := by
  simp [knownCode, h, h', ht]

/-- A code after the prebyte 0x1A (R85). -/
theorem knownCode_1A {rd : Nat → Byte} {c : Byte} {t : Instr} (h : rd 0 = 0x1A#8) (h' : rd 1 = c)
    (ht : onPage page1A c = some t) : knownCode rd = some (t, 2) := by
  simp [knownCode, h, h', ht]

/-- A code after the prebyte 0xCD (R85). -/
theorem knownCode_CD {rd : Nat → Byte} {c : Byte} {t : Instr} (h : rd 0 = 0xCD#8) (h' : rd 1 = c)
    (ht : onPage pageCD c = some t) : knownCode rd = some (t, 2) := by
  simp [knownCode, h, h', ht]

/-- Every one-byte code is the code of the form it selects, which is a form of Table 1 (R87, R91 to R95). -/
theorem oneByteCode_code :
    ∀ b : Byte, ∀ t ∈ oneByteCode b, t.opcodeBytes = some [b] ∧ t.wellFormed = true := by decide

theorem page18_code : ∀ e ∈ page18, e.2.opcodeBytes = some [0x18, e.1] ∧ e.2.wellFormed = true := by decide

theorem page1A_code : ∀ e ∈ page1A, e.2.opcodeBytes = some [0x1A, e.1] ∧ e.2.wellFormed = true := by decide

theorem pageCD_code : ∀ e ∈ pageCD, e.2.opcodeBytes = some [0xCD, e.1] ∧ e.2.wellFormed = true := by decide

/-- A form found on a page is one of its rows. -/
theorem onPage_mem {p : List (Byte × Instr)} {b : Byte} {t : Instr} (h : onPage p b = some t) : (b, t) ∈ p := by
  induction p with
  | nil => cases h
  | cons e p ih =>
    obtain ⟨c, i⟩ := e
    unfold onPage at h
    split at h
    · rename_i hc
      subst hc
      cases h
      exact List.mem_cons_self
    · exact List.mem_cons_of_mem _ (ih h)

end Sys2Proof
end

