-- ==== Sys2Proof/Laws/PerInstr.lean ====
section
/-! SUPPORT. The per-instruction family `OperandBytes`: the operand bytes of an instruction are as many as its format says and
read back as its operands (R72). One lemma per constructor of `Instr`. -/

namespace Sys2Proof.Laws.OperandBytes

/-- The operand bytes have the length of the format, and filling the form from them gives the instruction (R72). -/
def Statement (i : Instr) : Prop :=
  i.operandBytes.length = i.operandLen ∧ ∀ f : Nat → Byte, StartsWith f i.operandBytes → i.fill f = i

theorem ldaa (o : Src8) : Statement (.ldaa o) :=
  ⟨o.bytes_length, fun _ h => congrArg Instr.ldaa (o.fill_bytes h)⟩

theorem ldab (o : Src8) : Statement (.ldab o) :=
  ⟨o.bytes_length, fun _ h => congrArg Instr.ldab (o.fill_bytes h)⟩

theorem ldah (o : Src8) : Statement (.ldah o) :=
  ⟨o.bytes_length, fun _ h => congrArg Instr.ldah (o.fill_bytes h)⟩

theorem ldal (o : Src8) : Statement (.ldal o) :=
  ⟨o.bytes_length, fun _ h => congrArg Instr.ldal (o.fill_bytes h)⟩

theorem staa (m : MemOp) : Statement (.staa m) :=
  ⟨m.bytes_length, fun _ h => congrArg Instr.staa (m.fill_bytes h)⟩

theorem stab (m : MemOp) : Statement (.stab m) :=
  ⟨m.bytes_length, fun _ h => congrArg Instr.stab (m.fill_bytes h)⟩

theorem stah (m : MemOp) : Statement (.stah m) :=
  ⟨m.bytes_length, fun _ h => congrArg Instr.stah (m.fill_bytes h)⟩

theorem stal (m : MemOp) : Statement (.stal m) :=
  ⟨m.bytes_length, fun _ h => congrArg Instr.stal (m.fill_bytes h)⟩

theorem tab : Statement .tab := ⟨rfl, fun _ _ => rfl⟩

theorem tba : Statement .tba := ⟨rfl, fun _ _ => rfl⟩

theorem thl : Statement .thl := ⟨rfl, fun _ _ => rfl⟩

theorem tlh : Statement .tlh := ⟨rfl, fun _ _ => rfl⟩

theorem psha : Statement .psha := ⟨rfl, fun _ _ => rfl⟩

theorem pshb : Statement .pshb := ⟨rfl, fun _ _ => rfl⟩

theorem pshh : Statement .pshh := ⟨rfl, fun _ _ => rfl⟩

theorem pshl : Statement .pshl := ⟨rfl, fun _ _ => rfl⟩

theorem pula : Statement .pula := ⟨rfl, fun _ _ => rfl⟩

theorem pulb : Statement .pulb := ⟨rfl, fun _ _ => rfl⟩

theorem pulh : Statement .pulh := ⟨rfl, fun _ _ => rfl⟩

theorem pull : Statement .pull := ⟨rfl, fun _ _ => rfl⟩

theorem adda (o : Src8) : Statement (.adda o) :=
  ⟨o.bytes_length, fun _ h => congrArg Instr.adda (o.fill_bytes h)⟩

theorem addb (o : Src8) : Statement (.addb o) :=
  ⟨o.bytes_length, fun _ h => congrArg Instr.addb (o.fill_bytes h)⟩

theorem addh (o : Src8) : Statement (.addh o) :=
  ⟨o.bytes_length, fun _ h => congrArg Instr.addh (o.fill_bytes h)⟩

theorem addl (o : Src8) : Statement (.addl o) :=
  ⟨o.bytes_length, fun _ h => congrArg Instr.addl (o.fill_bytes h)⟩

theorem adca (o : Src8) : Statement (.adca o) :=
  ⟨o.bytes_length, fun _ h => congrArg Instr.adca (o.fill_bytes h)⟩

theorem adcb (o : Src8) : Statement (.adcb o) :=
  ⟨o.bytes_length, fun _ h => congrArg Instr.adcb (o.fill_bytes h)⟩

theorem adch (o : Src8) : Statement (.adch o) :=
  ⟨o.bytes_length, fun _ h => congrArg Instr.adch (o.fill_bytes h)⟩

theorem adcl (o : Src8) : Statement (.adcl o) :=
  ⟨o.bytes_length, fun _ h => congrArg Instr.adcl (o.fill_bytes h)⟩

theorem suba (o : Src8) : Statement (.suba o) :=
  ⟨o.bytes_length, fun _ h => congrArg Instr.suba (o.fill_bytes h)⟩

theorem subb (o : Src8) : Statement (.subb o) :=
  ⟨o.bytes_length, fun _ h => congrArg Instr.subb (o.fill_bytes h)⟩

theorem subh (o : Src8) : Statement (.subh o) :=
  ⟨o.bytes_length, fun _ h => congrArg Instr.subh (o.fill_bytes h)⟩

theorem subl (o : Src8) : Statement (.subl o) :=
  ⟨o.bytes_length, fun _ h => congrArg Instr.subl (o.fill_bytes h)⟩

theorem sbca (o : Src8) : Statement (.sbca o) :=
  ⟨o.bytes_length, fun _ h => congrArg Instr.sbca (o.fill_bytes h)⟩

theorem sbcb (o : Src8) : Statement (.sbcb o) :=
  ⟨o.bytes_length, fun _ h => congrArg Instr.sbcb (o.fill_bytes h)⟩

theorem sbch (o : Src8) : Statement (.sbch o) :=
  ⟨o.bytes_length, fun _ h => congrArg Instr.sbch (o.fill_bytes h)⟩

theorem sbcl (o : Src8) : Statement (.sbcl o) :=
  ⟨o.bytes_length, fun _ h => congrArg Instr.sbcl (o.fill_bytes h)⟩

theorem cmpa (o : Src8) : Statement (.cmpa o) :=
  ⟨o.bytes_length, fun _ h => congrArg Instr.cmpa (o.fill_bytes h)⟩

theorem cmpb (o : Src8) : Statement (.cmpb o) :=
  ⟨o.bytes_length, fun _ h => congrArg Instr.cmpb (o.fill_bytes h)⟩

theorem cmph (o : Src8) : Statement (.cmph o) :=
  ⟨o.bytes_length, fun _ h => congrArg Instr.cmph (o.fill_bytes h)⟩

theorem cmpl (o : Src8) : Statement (.cmpl o) :=
  ⟨o.bytes_length, fun _ h => congrArg Instr.cmpl (o.fill_bytes h)⟩

theorem bita (o : Src8) : Statement (.bita o) :=
  ⟨o.bytes_length, fun _ h => congrArg Instr.bita (o.fill_bytes h)⟩

theorem bitb (o : Src8) : Statement (.bitb o) :=
  ⟨o.bytes_length, fun _ h => congrArg Instr.bitb (o.fill_bytes h)⟩

theorem bith (o : Src8) : Statement (.bith o) :=
  ⟨o.bytes_length, fun _ h => congrArg Instr.bith (o.fill_bytes h)⟩

theorem bitl (o : Src8) : Statement (.bitl o) :=
  ⟨o.bytes_length, fun _ h => congrArg Instr.bitl (o.fill_bytes h)⟩

theorem anda (o : Src8) : Statement (.anda o) :=
  ⟨o.bytes_length, fun _ h => congrArg Instr.anda (o.fill_bytes h)⟩

theorem andb (o : Src8) : Statement (.andb o) :=
  ⟨o.bytes_length, fun _ h => congrArg Instr.andb (o.fill_bytes h)⟩

theorem andh (o : Src8) : Statement (.andh o) :=
  ⟨o.bytes_length, fun _ h => congrArg Instr.andh (o.fill_bytes h)⟩

theorem andl (o : Src8) : Statement (.andl o) :=
  ⟨o.bytes_length, fun _ h => congrArg Instr.andl (o.fill_bytes h)⟩

theorem oraa (o : Src8) : Statement (.oraa o) :=
  ⟨o.bytes_length, fun _ h => congrArg Instr.oraa (o.fill_bytes h)⟩

theorem orab (o : Src8) : Statement (.orab o) :=
  ⟨o.bytes_length, fun _ h => congrArg Instr.orab (o.fill_bytes h)⟩

theorem orah (o : Src8) : Statement (.orah o) :=
  ⟨o.bytes_length, fun _ h => congrArg Instr.orah (o.fill_bytes h)⟩

theorem oral (o : Src8) : Statement (.oral o) :=
  ⟨o.bytes_length, fun _ h => congrArg Instr.oral (o.fill_bytes h)⟩

theorem eora (o : Src8) : Statement (.eora o) :=
  ⟨o.bytes_length, fun _ h => congrArg Instr.eora (o.fill_bytes h)⟩

theorem eorb (o : Src8) : Statement (.eorb o) :=
  ⟨o.bytes_length, fun _ h => congrArg Instr.eorb (o.fill_bytes h)⟩

theorem eorh (o : Src8) : Statement (.eorh o) :=
  ⟨o.bytes_length, fun _ h => congrArg Instr.eorh (o.fill_bytes h)⟩

theorem eorl (o : Src8) : Statement (.eorl o) :=
  ⟨o.bytes_length, fun _ h => congrArg Instr.eorl (o.fill_bytes h)⟩

theorem inc (m : MemOp) : Statement (.inc m) :=
  ⟨m.bytes_length, fun _ h => congrArg Instr.inc (m.fill_bytes h)⟩

theorem inca : Statement .inca := ⟨rfl, fun _ _ => rfl⟩

theorem incb : Statement .incb := ⟨rfl, fun _ _ => rfl⟩

theorem inch : Statement .inch := ⟨rfl, fun _ _ => rfl⟩

theorem incl : Statement .incl := ⟨rfl, fun _ _ => rfl⟩

theorem dec (m : MemOp) : Statement (.dec m) :=
  ⟨m.bytes_length, fun _ h => congrArg Instr.dec (m.fill_bytes h)⟩

theorem deca : Statement .deca := ⟨rfl, fun _ _ => rfl⟩

theorem decb : Statement .decb := ⟨rfl, fun _ _ => rfl⟩

theorem dech : Statement .dech := ⟨rfl, fun _ _ => rfl⟩

theorem decl : Statement .decl := ⟨rfl, fun _ _ => rfl⟩

theorem neg (m : MemOp) : Statement (.neg m) :=
  ⟨m.bytes_length, fun _ h => congrArg Instr.neg (m.fill_bytes h)⟩

theorem nega : Statement .nega := ⟨rfl, fun _ _ => rfl⟩

theorem negb : Statement .negb := ⟨rfl, fun _ _ => rfl⟩

theorem negh : Statement .negh := ⟨rfl, fun _ _ => rfl⟩

theorem negl : Statement .negl := ⟨rfl, fun _ _ => rfl⟩

theorem com (m : MemOp) : Statement (.com m) :=
  ⟨m.bytes_length, fun _ h => congrArg Instr.com (m.fill_bytes h)⟩

theorem coma : Statement .coma := ⟨rfl, fun _ _ => rfl⟩

theorem comb : Statement .comb := ⟨rfl, fun _ _ => rfl⟩

theorem comh : Statement .comh := ⟨rfl, fun _ _ => rfl⟩

theorem coml : Statement .coml := ⟨rfl, fun _ _ => rfl⟩

theorem clr (m : MemOp) : Statement (.clr m) :=
  ⟨m.bytes_length, fun _ h => congrArg Instr.clr (m.fill_bytes h)⟩

theorem clra : Statement .clra := ⟨rfl, fun _ _ => rfl⟩

theorem clrb : Statement .clrb := ⟨rfl, fun _ _ => rfl⟩

theorem clrh : Statement .clrh := ⟨rfl, fun _ _ => rfl⟩

theorem clrl : Statement .clrl := ⟨rfl, fun _ _ => rfl⟩

theorem bset (m : MemOp) (mask : Byte) : Statement (.bset m mask) := by
  refine ⟨by simp [Instr.operandBytes, Instr.operandLen, MemOp.bytes_length], fun f h => ?_⟩
  obtain ⟨hm, hv⟩ := (startsWith_append _ _ _).mp h
  simp only [MemOp.bytes_length, startsWith_cons] at hv
  have h0 : f m.len = mask := hv.1
  simp [Instr.fill, m.fill_bytes hm, h0]

theorem bclr (m : MemOp) (mask : Byte) : Statement (.bclr m mask) := by
  refine ⟨by simp [Instr.operandBytes, Instr.operandLen, MemOp.bytes_length], fun f h => ?_⟩
  obtain ⟨hm, hv⟩ := (startsWith_append _ _ _).mp h
  simp only [MemOp.bytes_length, startsWith_cons] at hv
  have h0 : f m.len = mask := hv.1
  simp [Instr.fill, m.fill_bytes hm, h0]

theorem tst (m : MemOp) : Statement (.tst m) :=
  ⟨m.bytes_length, fun _ h => congrArg Instr.tst (m.fill_bytes h)⟩

theorem tsta : Statement .tsta := ⟨rfl, fun _ _ => rfl⟩

theorem tstb : Statement .tstb := ⟨rfl, fun _ _ => rfl⟩

theorem tsth : Statement .tsth := ⟨rfl, fun _ _ => rfl⟩

theorem tstl : Statement .tstl := ⟨rfl, fun _ _ => rfl⟩

theorem lsr (m : MemOp) : Statement (.lsr m) :=
  ⟨m.bytes_length, fun _ h => congrArg Instr.lsr (m.fill_bytes h)⟩

theorem lsra : Statement .lsra := ⟨rfl, fun _ _ => rfl⟩

theorem lsrb : Statement .lsrb := ⟨rfl, fun _ _ => rfl⟩

theorem lsrh : Statement .lsrh := ⟨rfl, fun _ _ => rfl⟩

theorem lsrl : Statement .lsrl := ⟨rfl, fun _ _ => rfl⟩

theorem asl (m : MemOp) : Statement (.asl m) :=
  ⟨m.bytes_length, fun _ h => congrArg Instr.asl (m.fill_bytes h)⟩

theorem asla : Statement .asla := ⟨rfl, fun _ _ => rfl⟩

theorem aslb : Statement .aslb := ⟨rfl, fun _ _ => rfl⟩

theorem aslh : Statement .aslh := ⟨rfl, fun _ _ => rfl⟩

theorem asll : Statement .asll := ⟨rfl, fun _ _ => rfl⟩

theorem asr (m : MemOp) : Statement (.asr m) :=
  ⟨m.bytes_length, fun _ h => congrArg Instr.asr (m.fill_bytes h)⟩

theorem asra : Statement .asra := ⟨rfl, fun _ _ => rfl⟩

theorem asrb : Statement .asrb := ⟨rfl, fun _ _ => rfl⟩

theorem asrh : Statement .asrh := ⟨rfl, fun _ _ => rfl⟩

theorem asrl : Statement .asrl := ⟨rfl, fun _ _ => rfl⟩

theorem ror (m : MemOp) : Statement (.ror m) :=
  ⟨m.bytes_length, fun _ h => congrArg Instr.ror (m.fill_bytes h)⟩

theorem rora : Statement .rora := ⟨rfl, fun _ _ => rfl⟩

theorem rorb : Statement .rorb := ⟨rfl, fun _ _ => rfl⟩

theorem rorh : Statement .rorh := ⟨rfl, fun _ _ => rfl⟩

theorem rorl : Statement .rorl := ⟨rfl, fun _ _ => rfl⟩

theorem rol (m : MemOp) : Statement (.rol m) :=
  ⟨m.bytes_length, fun _ h => congrArg Instr.rol (m.fill_bytes h)⟩

theorem rola : Statement .rola := ⟨rfl, fun _ _ => rfl⟩

theorem rolb : Statement .rolb := ⟨rfl, fun _ _ => rfl⟩

theorem rolh : Statement .rolh := ⟨rfl, fun _ _ => rfl⟩

theorem roll : Statement .roll := ⟨rfl, fun _ _ => rfl⟩

theorem aba : Statement .aba := ⟨rfl, fun _ _ => rfl⟩

theorem alh : Statement .alh := ⟨rfl, fun _ _ => rfl⟩

theorem sba : Statement .sba := ⟨rfl, fun _ _ => rfl⟩

theorem slh : Statement .slh := ⟨rfl, fun _ _ => rfl⟩

theorem cba : Statement .cba := ⟨rfl, fun _ _ => rfl⟩

theorem clh : Statement .clh := ⟨rfl, fun _ _ => rfl⟩

theorem sxtb : Statement .sxtb := ⟨rfl, fun _ _ => rfl⟩

theorem sxtl : Statement .sxtl := ⟨rfl, fun _ _ => rfl⟩

theorem mul : Statement .mul := ⟨rfl, fun _ _ => rfl⟩

theorem daa : Statement .daa := ⟨rfl, fun _ _ => rfl⟩

theorem clc : Statement .clc := ⟨rfl, fun _ _ => rfl⟩

theorem sec : Statement .sec := ⟨rfl, fun _ _ => rfl⟩

theorem clv : Statement .clv := ⟨rfl, fun _ _ => rfl⟩

theorem sev : Statement .sev := ⟨rfl, fun _ _ => rfl⟩

theorem tap : Statement .tap := ⟨rfl, fun _ _ => rfl⟩

theorem tpa : Statement .tpa := ⟨rfl, fun _ _ => rfl⟩

theorem ldd (o : Src16) : Statement (.ldd o) :=
  ⟨o.bytes_length, fun _ h => congrArg Instr.ldd (o.fill_bytes h)⟩

theorem lde (o : Src16) : Statement (.lde o) :=
  ⟨o.bytes_length, fun _ h => congrArg Instr.lde (o.fill_bytes h)⟩

theorem std (m : MemOp) : Statement (.std m) :=
  ⟨m.bytes_length, fun _ h => congrArg Instr.std (m.fill_bytes h)⟩

theorem ste (m : MemOp) : Statement (.ste m) :=
  ⟨m.bytes_length, fun _ h => congrArg Instr.ste (m.fill_bytes h)⟩

theorem xgde : Statement .xgde := ⟨rfl, fun _ _ => rfl⟩

theorem addd (o : Src16) : Statement (.addd o) :=
  ⟨o.bytes_length, fun _ h => congrArg Instr.addd (o.fill_bytes h)⟩

theorem adde (o : Src16) : Statement (.adde o) :=
  ⟨o.bytes_length, fun _ h => congrArg Instr.adde (o.fill_bytes h)⟩

theorem subd (o : Src16) : Statement (.subd o) :=
  ⟨o.bytes_length, fun _ h => congrArg Instr.subd (o.fill_bytes h)⟩

theorem sube (o : Src16) : Statement (.sube o) :=
  ⟨o.bytes_length, fun _ h => congrArg Instr.sube (o.fill_bytes h)⟩

theorem cmpd (o : Src16) : Statement (.cmpd o) :=
  ⟨o.bytes_length, fun _ h => congrArg Instr.cmpd (o.fill_bytes h)⟩

theorem cmpe (o : Src16) : Statement (.cmpe o) :=
  ⟨o.bytes_length, fun _ h => congrArg Instr.cmpe (o.fill_bytes h)⟩

theorem aed : Statement .aed := ⟨rfl, fun _ _ => rfl⟩

theorem sed : Statement .sed := ⟨rfl, fun _ _ => rfl⟩

theorem ced : Statement .ced := ⟨rfl, fun _ _ => rfl⟩

theorem med : Statement .med := ⟨rfl, fun _ _ => rfl⟩

theorem lsrd : Statement .lsrd := ⟨rfl, fun _ _ => rfl⟩

theorem lsre : Statement .lsre := ⟨rfl, fun _ _ => rfl⟩

theorem asrd : Statement .asrd := ⟨rfl, fun _ _ => rfl⟩

theorem asre : Statement .asre := ⟨rfl, fun _ _ => rfl⟩

theorem asld : Statement .asld := ⟨rfl, fun _ _ => rfl⟩

theorem asle : Statement .asle := ⟨rfl, fun _ _ => rfl⟩

theorem idiv : Statement .idiv := ⟨rfl, fun _ _ => rfl⟩

theorem fdiv : Statement .fdiv := ⟨rfl, fun _ _ => rfl⟩

theorem ldx (o : Src16) : Statement (.ldx o) :=
  ⟨o.bytes_length, fun _ h => congrArg Instr.ldx (o.fill_bytes h)⟩

theorem ldy (o : Src16) : Statement (.ldy o) :=
  ⟨o.bytes_length, fun _ h => congrArg Instr.ldy (o.fill_bytes h)⟩

theorem ldz (o : Src16) : Statement (.ldz o) :=
  ⟨o.bytes_length, fun _ h => congrArg Instr.ldz (o.fill_bytes h)⟩

theorem stx (m : MemOp) : Statement (.stx m) :=
  ⟨m.bytes_length, fun _ h => congrArg Instr.stx (m.fill_bytes h)⟩

theorem sty (m : MemOp) : Statement (.sty m) :=
  ⟨m.bytes_length, fun _ h => congrArg Instr.sty (m.fill_bytes h)⟩

theorem stz (m : MemOp) : Statement (.stz m) :=
  ⟨m.bytes_length, fun _ h => congrArg Instr.stz (m.fill_bytes h)⟩

theorem pshx : Statement .pshx := ⟨rfl, fun _ _ => rfl⟩

theorem pshy : Statement .pshy := ⟨rfl, fun _ _ => rfl⟩

theorem pshz : Statement .pshz := ⟨rfl, fun _ _ => rfl⟩

theorem pulx : Statement .pulx := ⟨rfl, fun _ _ => rfl⟩

theorem puly : Statement .puly := ⟨rfl, fun _ _ => rfl⟩

theorem pulz : Statement .pulz := ⟨rfl, fun _ _ => rfl⟩

theorem xgdx : Statement .xgdx := ⟨rfl, fun _ _ => rfl⟩

theorem xgdy : Statement .xgdy := ⟨rfl, fun _ _ => rfl⟩

theorem xgdz : Statement .xgdz := ⟨rfl, fun _ _ => rfl⟩

theorem xgex : Statement .xgex := ⟨rfl, fun _ _ => rfl⟩

theorem xgey : Statement .xgey := ⟨rfl, fun _ _ => rfl⟩

theorem xgez : Statement .xgez := ⟨rfl, fun _ _ => rfl⟩

theorem cpx (o : Src16) : Statement (.cpx o) :=
  ⟨o.bytes_length, fun _ h => congrArg Instr.cpx (o.fill_bytes h)⟩

theorem cpy (o : Src16) : Statement (.cpy o) :=
  ⟨o.bytes_length, fun _ h => congrArg Instr.cpy (o.fill_bytes h)⟩

theorem cpz (o : Src16) : Statement (.cpz o) :=
  ⟨o.bytes_length, fun _ h => congrArg Instr.cpz (o.fill_bytes h)⟩

theorem inx : Statement .inx := ⟨rfl, fun _ _ => rfl⟩

theorem iny : Statement .iny := ⟨rfl, fun _ _ => rfl⟩

theorem inz : Statement .inz := ⟨rfl, fun _ _ => rfl⟩

theorem dex : Statement .dex := ⟨rfl, fun _ _ => rfl⟩

theorem dey : Statement .dey := ⟨rfl, fun _ _ => rfl⟩

theorem dez : Statement .dez := ⟨rfl, fun _ _ => rfl⟩

theorem addx (o : Src16) : Statement (.addx o) :=
  ⟨o.bytes_length, fun _ h => congrArg Instr.addx (o.fill_bytes h)⟩

theorem addy (o : Src16) : Statement (.addy o) :=
  ⟨o.bytes_length, fun _ h => congrArg Instr.addy (o.fill_bytes h)⟩

theorem addz (o : Src16) : Statement (.addz o) :=
  ⟨o.bytes_length, fun _ h => congrArg Instr.addz (o.fill_bytes h)⟩

theorem abx : Statement .abx := ⟨rfl, fun _ _ => rfl⟩

theorem aby : Statement .aby := ⟨rfl, fun _ _ => rfl⟩

theorem abz : Statement .abz := ⟨rfl, fun _ _ => rfl⟩

theorem lds (o : Src16) : Statement (.lds o) :=
  ⟨o.bytes_length, fun _ h => congrArg Instr.lds (o.fill_bytes h)⟩

theorem sts (m : MemOp) : Statement (.sts m) :=
  ⟨m.bytes_length, fun _ h => congrArg Instr.sts (m.fill_bytes h)⟩

theorem tsx : Statement .tsx := ⟨rfl, fun _ _ => rfl⟩

theorem tsy : Statement .tsy := ⟨rfl, fun _ _ => rfl⟩

theorem tsz : Statement .tsz := ⟨rfl, fun _ _ => rfl⟩

theorem txs : Statement .txs := ⟨rfl, fun _ _ => rfl⟩

theorem tys : Statement .tys := ⟨rfl, fun _ _ => rfl⟩

theorem tzs : Statement .tzs := ⟨rfl, fun _ _ => rfl⟩

theorem ins : Statement .ins := ⟨rfl, fun _ _ => rfl⟩

theorem des : Statement .des := ⟨rfl, fun _ _ => rfl⟩

theorem nop : Statement .nop := ⟨rfl, fun _ _ => rfl⟩

theorem jmp (m : MemOp) : Statement (.jmp m) :=
  ⟨m.bytes_length, fun _ h => congrArg Instr.jmp (m.fill_bytes h)⟩

theorem jsr (m : MemOp) : Statement (.jsr m) :=
  ⟨m.bytes_length, fun _ h => congrArg Instr.jsr (m.fill_bytes h)⟩

theorem rts : Statement .rts := ⟨rfl, fun _ _ => rfl⟩

theorem bsr (off : Byte) : Statement (.bsr off) :=
  ⟨rfl, fun _ h => congrArg Instr.bsr ((startsWith_cons _ _ _).mp h).1⟩

theorem bra (off : Byte) : Statement (.bra off) :=
  ⟨rfl, fun _ h => congrArg Instr.bra ((startsWith_cons _ _ _).mp h).1⟩

theorem brset (m : MemOp) (mask : Byte) (off : Byte) : Statement (.brset m mask off) := by
  refine ⟨by simp [Instr.operandBytes, Instr.operandLen, MemOp.bytes_length], fun f h => ?_⟩
  obtain ⟨hm, hv⟩ := (startsWith_append _ _ _).mp h
  simp only [MemOp.bytes_length, startsWith_cons] at hv
  have h0 : f m.len = mask := hv.1
  have h1 : f (m.len + 1) = off := hv.2.1
  simp [Instr.fill, m.fill_bytes hm, h0, h1]

theorem brclr (m : MemOp) (mask : Byte) (off : Byte) : Statement (.brclr m mask off) := by
  refine ⟨by simp [Instr.operandBytes, Instr.operandLen, MemOp.bytes_length], fun f h => ?_⟩
  obtain ⟨hm, hv⟩ := (startsWith_append _ _ _).mp h
  simp only [MemOp.bytes_length, startsWith_cons] at hv
  have h0 : f m.len = mask := hv.1
  have h1 : f (m.len + 1) = off := hv.2.1
  simp [Instr.fill, m.fill_bytes hm, h0, h1]

theorem bmi (off : Byte) : Statement (.bmi off) :=
  ⟨rfl, fun _ h => congrArg Instr.bmi ((startsWith_cons _ _ _).mp h).1⟩

theorem bpl (off : Byte) : Statement (.bpl off) :=
  ⟨rfl, fun _ h => congrArg Instr.bpl ((startsWith_cons _ _ _).mp h).1⟩

theorem beq (off : Byte) : Statement (.beq off) :=
  ⟨rfl, fun _ h => congrArg Instr.beq ((startsWith_cons _ _ _).mp h).1⟩

theorem bne (off : Byte) : Statement (.bne off) :=
  ⟨rfl, fun _ h => congrArg Instr.bne ((startsWith_cons _ _ _).mp h).1⟩

theorem bcs (off : Byte) : Statement (.bcs off) :=
  ⟨rfl, fun _ h => congrArg Instr.bcs ((startsWith_cons _ _ _).mp h).1⟩

theorem bcc (off : Byte) : Statement (.bcc off) :=
  ⟨rfl, fun _ h => congrArg Instr.bcc ((startsWith_cons _ _ _).mp h).1⟩

theorem bvs (off : Byte) : Statement (.bvs off) :=
  ⟨rfl, fun _ h => congrArg Instr.bvs ((startsWith_cons _ _ _).mp h).1⟩

theorem bvc (off : Byte) : Statement (.bvc off) :=
  ⟨rfl, fun _ h => congrArg Instr.bvc ((startsWith_cons _ _ _).mp h).1⟩

theorem bgt (off : Byte) : Statement (.bgt off) :=
  ⟨rfl, fun _ h => congrArg Instr.bgt ((startsWith_cons _ _ _).mp h).1⟩

theorem blt (off : Byte) : Statement (.blt off) :=
  ⟨rfl, fun _ h => congrArg Instr.blt ((startsWith_cons _ _ _).mp h).1⟩

theorem bge (off : Byte) : Statement (.bge off) :=
  ⟨rfl, fun _ h => congrArg Instr.bge ((startsWith_cons _ _ _).mp h).1⟩

theorem ble (off : Byte) : Statement (.ble off) :=
  ⟨rfl, fun _ h => congrArg Instr.ble ((startsWith_cons _ _ _).mp h).1⟩

theorem bhi (off : Byte) : Statement (.bhi off) :=
  ⟨rfl, fun _ h => congrArg Instr.bhi ((startsWith_cons _ _ _).mp h).1⟩

theorem blo (off : Byte) : Statement (.blo off) :=
  ⟨rfl, fun _ h => congrArg Instr.blo ((startsWith_cons _ _ _).mp h).1⟩

theorem bhs (off : Byte) : Statement (.bhs off) :=
  ⟨rfl, fun _ h => congrArg Instr.bhs ((startsWith_cons _ _ _).mp h).1⟩

theorem bls (off : Byte) : Statement (.bls off) :=
  ⟨rfl, fun _ h => congrArg Instr.bls ((startsWith_cons _ _ _).mp h).1⟩

theorem cli : Statement .cli := ⟨rfl, fun _ _ => rfl⟩

theorem sei : Statement .sei := ⟨rfl, fun _ _ => rfl⟩

theorem swi : Statement .swi := ⟨rfl, fun _ _ => rfl⟩

theorem wai : Statement .wai := ⟨rfl, fun _ _ => rfl⟩

theorem rti : Statement .rti := ⟨rfl, fun _ _ => rfl⟩

theorem stop : Statement .stop := ⟨rfl, fun _ _ => rfl⟩

theorem unrecognised : Statement .unrecognised := ⟨rfl, fun _ _ => rfl⟩

end Sys2Proof.Laws.OperandBytes
end

