-- ==== Sys2Proof/Laws/CodeFound.lean ====
section
/-! SUPPORT. The object code of every instruction form that has one is found by the decoder: the form it selects is the
instruction's, up to operand values (R91 to R95). One lemma per constructor of `Instr`. -/

namespace Sys2Proof.Laws.CodeFound

/-- Bytes that start with the instruction's code select a form that the operand bytes fill to it (BLO and BHS: to the
instruction with the same code). -/
def Statement (i : Instr) : Prop :=
  ∀ (rd : Nat → Byte) (c : List Byte), i.opcodeBytes = some c → StartsWith rd c →
    ∃ t, knownCode rd = some (t, c.length) ∧ (∀ f, t.fill f = i.canonical.fill f) ∧ t.operandLen = i.operandLen

theorem none_known {i : Instr} (h : i.opcodeBytes = none) : Statement i := fun rd c hc => by
  rw [h] at hc
  cases hc

theorem one_byte {i t : Instr} {b : Byte} (h : i.opcodeBytes = some [b]) (hp : b ≠ 0x18#8 ∧ b ≠ 0x1A#8 ∧ b ≠ 0xCD#8)
    (ht : oneByteCode b = some t) (hf : ∀ f, t.fill f = i.canonical.fill f) (hl : t.operandLen = i.operandLen) :
    Statement i := fun rd c hc hs => by
  rw [h] at hc
  cases hc
  exact ⟨t, knownCode_one (hs 0 (by simp)) hp.1 hp.2.1 hp.2.2 ht, hf, hl⟩

theorem page_18 {i t : Instr} {b : Byte} (h : i.opcodeBytes = some [0x18#8, b]) (ht : onPage page18 b = some t)
    (hf : ∀ f, t.fill f = i.canonical.fill f) (hl : t.operandLen = i.operandLen) : Statement i := fun rd c hc hs => by
  rw [h] at hc
  cases hc
  exact ⟨t, knownCode_18 (hs 0 (by simp)) (hs 1 (by simp)) ht, hf, hl⟩

theorem page_1A {i t : Instr} {b : Byte} (h : i.opcodeBytes = some [0x1A#8, b]) (ht : onPage page1A b = some t)
    (hf : ∀ f, t.fill f = i.canonical.fill f) (hl : t.operandLen = i.operandLen) : Statement i := fun rd c hc hs => by
  rw [h] at hc
  cases hc
  exact ⟨t, knownCode_1A (hs 0 (by simp)) (hs 1 (by simp)) ht, hf, hl⟩

theorem page_CD {i t : Instr} {b : Byte} (h : i.opcodeBytes = some [0xCD#8, b]) (ht : onPage pageCD b = some t)
    (hf : ∀ f, t.fill f = i.canonical.fill f) (hl : t.operandLen = i.operandLen) : Statement i := fun rd c hc hs => by
  rw [h] at hc
  cases hc
  exact ⟨t, knownCode_CD (hs 0 (by simp)) (hs 1 (by simp)) ht, hf, hl⟩

theorem ldaa : ∀ (o : Src8), Statement (.ldaa o)
  | .imm _ => one_byte rfl (by decide) rfl (fun _ => rfl) rfl
  | .mem (.zp _) => one_byte rfl (by decide) rfl (fun _ => rfl) rfl
  | .mem (.dir _) => one_byte rfl (by decide) rfl (fun _ => rfl) rfl
  | .mem (.idx .X false _) => one_byte rfl (by decide) rfl (fun _ => rfl) rfl
  | .mem (.idx .X true _) => none_known rfl
  | .mem (.idx .Y false _) => page_18 rfl rfl (fun _ => rfl) rfl
  | .mem (.idx .Y true _) => none_known rfl
  | .mem (.idx .Z _ _) => none_known rfl
  | .mem (.rel _) => none_known rfl

theorem ldab : ∀ (o : Src8), Statement (.ldab o)
  | .imm _ => one_byte rfl (by decide) rfl (fun _ => rfl) rfl
  | .mem (.zp _) => one_byte rfl (by decide) rfl (fun _ => rfl) rfl
  | .mem (.dir _) => one_byte rfl (by decide) rfl (fun _ => rfl) rfl
  | .mem (.idx .X false _) => one_byte rfl (by decide) rfl (fun _ => rfl) rfl
  | .mem (.idx .X true _) => none_known rfl
  | .mem (.idx .Y false _) => page_18 rfl rfl (fun _ => rfl) rfl
  | .mem (.idx .Y true _) => none_known rfl
  | .mem (.idx .Z _ _) => none_known rfl
  | .mem (.rel _) => none_known rfl

theorem ldah (o : Src8) : Statement (.ldah o) := none_known rfl

theorem ldal (o : Src8) : Statement (.ldal o) := none_known rfl

theorem staa : ∀ (m : MemOp), Statement (.staa m)
  | .zp _ => one_byte rfl (by decide) rfl (fun _ => rfl) rfl
  | .dir _ => one_byte rfl (by decide) rfl (fun _ => rfl) rfl
  | .idx .X false _ => one_byte rfl (by decide) rfl (fun _ => rfl) rfl
  | .idx .X true _ => none_known rfl
  | .idx .Y false _ => page_18 rfl rfl (fun _ => rfl) rfl
  | .idx .Y true _ => none_known rfl
  | .idx .Z _ _ => none_known rfl
  | .rel _ => none_known rfl

theorem stab : ∀ (m : MemOp), Statement (.stab m)
  | .zp _ => one_byte rfl (by decide) rfl (fun _ => rfl) rfl
  | .dir _ => one_byte rfl (by decide) rfl (fun _ => rfl) rfl
  | .idx .X false _ => one_byte rfl (by decide) rfl (fun _ => rfl) rfl
  | .idx .X true _ => none_known rfl
  | .idx .Y false _ => page_18 rfl rfl (fun _ => rfl) rfl
  | .idx .Y true _ => none_known rfl
  | .idx .Z _ _ => none_known rfl
  | .rel _ => none_known rfl

theorem stah (m : MemOp) : Statement (.stah m) := none_known rfl

theorem stal (m : MemOp) : Statement (.stal m) := none_known rfl

theorem tab : Statement (.tab) := one_byte rfl (by decide) rfl (fun _ => rfl) rfl

theorem tba : Statement (.tba) := one_byte rfl (by decide) rfl (fun _ => rfl) rfl

theorem thl : Statement (.thl) := none_known rfl

theorem tlh : Statement (.tlh) := none_known rfl

theorem psha : Statement (.psha) := one_byte rfl (by decide) rfl (fun _ => rfl) rfl

theorem pshb : Statement (.pshb) := one_byte rfl (by decide) rfl (fun _ => rfl) rfl

theorem pshh : Statement (.pshh) := none_known rfl

theorem pshl : Statement (.pshl) := none_known rfl

theorem pula : Statement (.pula) := one_byte rfl (by decide) rfl (fun _ => rfl) rfl

theorem pulb : Statement (.pulb) := one_byte rfl (by decide) rfl (fun _ => rfl) rfl

theorem pulh : Statement (.pulh) := none_known rfl

theorem pull : Statement (.pull) := none_known rfl

theorem adda : ∀ (o : Src8), Statement (.adda o)
  | .imm _ => one_byte rfl (by decide) rfl (fun _ => rfl) rfl
  | .mem (.zp _) => one_byte rfl (by decide) rfl (fun _ => rfl) rfl
  | .mem (.dir _) => one_byte rfl (by decide) rfl (fun _ => rfl) rfl
  | .mem (.idx .X false _) => one_byte rfl (by decide) rfl (fun _ => rfl) rfl
  | .mem (.idx .X true _) => none_known rfl
  | .mem (.idx .Y false _) => page_18 rfl rfl (fun _ => rfl) rfl
  | .mem (.idx .Y true _) => none_known rfl
  | .mem (.idx .Z _ _) => none_known rfl
  | .mem (.rel _) => none_known rfl

theorem addb : ∀ (o : Src8), Statement (.addb o)
  | .imm _ => one_byte rfl (by decide) rfl (fun _ => rfl) rfl
  | .mem (.zp _) => one_byte rfl (by decide) rfl (fun _ => rfl) rfl
  | .mem (.dir _) => one_byte rfl (by decide) rfl (fun _ => rfl) rfl
  | .mem (.idx .X false _) => one_byte rfl (by decide) rfl (fun _ => rfl) rfl
  | .mem (.idx .X true _) => none_known rfl
  | .mem (.idx .Y false _) => page_18 rfl rfl (fun _ => rfl) rfl
  | .mem (.idx .Y true _) => none_known rfl
  | .mem (.idx .Z _ _) => none_known rfl
  | .mem (.rel _) => none_known rfl

theorem addh (o : Src8) : Statement (.addh o) := none_known rfl

theorem addl (o : Src8) : Statement (.addl o) := none_known rfl

theorem adca : ∀ (o : Src8), Statement (.adca o)
  | .imm _ => one_byte rfl (by decide) rfl (fun _ => rfl) rfl
  | .mem (.zp _) => one_byte rfl (by decide) rfl (fun _ => rfl) rfl
  | .mem (.dir _) => one_byte rfl (by decide) rfl (fun _ => rfl) rfl
  | .mem (.idx .X false _) => one_byte rfl (by decide) rfl (fun _ => rfl) rfl
  | .mem (.idx .X true _) => none_known rfl
  | .mem (.idx .Y false _) => page_18 rfl rfl (fun _ => rfl) rfl
  | .mem (.idx .Y true _) => none_known rfl
  | .mem (.idx .Z _ _) => none_known rfl
  | .mem (.rel _) => none_known rfl

theorem adcb : ∀ (o : Src8), Statement (.adcb o)
  | .imm _ => one_byte rfl (by decide) rfl (fun _ => rfl) rfl
  | .mem (.zp _) => one_byte rfl (by decide) rfl (fun _ => rfl) rfl
  | .mem (.dir _) => one_byte rfl (by decide) rfl (fun _ => rfl) rfl
  | .mem (.idx .X false _) => one_byte rfl (by decide) rfl (fun _ => rfl) rfl
  | .mem (.idx .X true _) => none_known rfl
  | .mem (.idx .Y false _) => page_18 rfl rfl (fun _ => rfl) rfl
  | .mem (.idx .Y true _) => none_known rfl
  | .mem (.idx .Z _ _) => none_known rfl
  | .mem (.rel _) => none_known rfl

theorem adch (o : Src8) : Statement (.adch o) := none_known rfl

theorem adcl (o : Src8) : Statement (.adcl o) := none_known rfl

theorem suba : ∀ (o : Src8), Statement (.suba o)
  | .imm _ => one_byte rfl (by decide) rfl (fun _ => rfl) rfl
  | .mem (.zp _) => one_byte rfl (by decide) rfl (fun _ => rfl) rfl
  | .mem (.dir _) => one_byte rfl (by decide) rfl (fun _ => rfl) rfl
  | .mem (.idx .X false _) => one_byte rfl (by decide) rfl (fun _ => rfl) rfl
  | .mem (.idx .X true _) => none_known rfl
  | .mem (.idx .Y false _) => page_18 rfl rfl (fun _ => rfl) rfl
  | .mem (.idx .Y true _) => none_known rfl
  | .mem (.idx .Z _ _) => none_known rfl
  | .mem (.rel _) => none_known rfl

theorem subb : ∀ (o : Src8), Statement (.subb o)
  | .imm _ => one_byte rfl (by decide) rfl (fun _ => rfl) rfl
  | .mem (.zp _) => one_byte rfl (by decide) rfl (fun _ => rfl) rfl
  | .mem (.dir _) => one_byte rfl (by decide) rfl (fun _ => rfl) rfl
  | .mem (.idx .X false _) => one_byte rfl (by decide) rfl (fun _ => rfl) rfl
  | .mem (.idx .X true _) => none_known rfl
  | .mem (.idx .Y false _) => page_18 rfl rfl (fun _ => rfl) rfl
  | .mem (.idx .Y true _) => none_known rfl
  | .mem (.idx .Z _ _) => none_known rfl
  | .mem (.rel _) => none_known rfl

theorem subh (o : Src8) : Statement (.subh o) := none_known rfl

theorem subl (o : Src8) : Statement (.subl o) := none_known rfl

theorem sbca : ∀ (o : Src8), Statement (.sbca o)
  | .imm _ => one_byte rfl (by decide) rfl (fun _ => rfl) rfl
  | .mem (.zp _) => one_byte rfl (by decide) rfl (fun _ => rfl) rfl
  | .mem (.dir _) => one_byte rfl (by decide) rfl (fun _ => rfl) rfl
  | .mem (.idx .X false _) => one_byte rfl (by decide) rfl (fun _ => rfl) rfl
  | .mem (.idx .X true _) => none_known rfl
  | .mem (.idx .Y false _) => page_18 rfl rfl (fun _ => rfl) rfl
  | .mem (.idx .Y true _) => none_known rfl
  | .mem (.idx .Z _ _) => none_known rfl
  | .mem (.rel _) => none_known rfl

theorem sbcb : ∀ (o : Src8), Statement (.sbcb o)
  | .imm _ => one_byte rfl (by decide) rfl (fun _ => rfl) rfl
  | .mem (.zp _) => one_byte rfl (by decide) rfl (fun _ => rfl) rfl
  | .mem (.dir _) => one_byte rfl (by decide) rfl (fun _ => rfl) rfl
  | .mem (.idx .X false _) => one_byte rfl (by decide) rfl (fun _ => rfl) rfl
  | .mem (.idx .X true _) => none_known rfl
  | .mem (.idx .Y false _) => page_18 rfl rfl (fun _ => rfl) rfl
  | .mem (.idx .Y true _) => none_known rfl
  | .mem (.idx .Z _ _) => none_known rfl
  | .mem (.rel _) => none_known rfl

theorem sbch (o : Src8) : Statement (.sbch o) := none_known rfl

theorem sbcl (o : Src8) : Statement (.sbcl o) := none_known rfl

theorem cmpa : ∀ (o : Src8), Statement (.cmpa o)
  | .imm _ => one_byte rfl (by decide) rfl (fun _ => rfl) rfl
  | .mem (.zp _) => one_byte rfl (by decide) rfl (fun _ => rfl) rfl
  | .mem (.dir _) => one_byte rfl (by decide) rfl (fun _ => rfl) rfl
  | .mem (.idx .X false _) => one_byte rfl (by decide) rfl (fun _ => rfl) rfl
  | .mem (.idx .X true _) => none_known rfl
  | .mem (.idx .Y false _) => page_18 rfl rfl (fun _ => rfl) rfl
  | .mem (.idx .Y true _) => none_known rfl
  | .mem (.idx .Z _ _) => none_known rfl
  | .mem (.rel _) => none_known rfl

theorem cmpb : ∀ (o : Src8), Statement (.cmpb o)
  | .imm _ => one_byte rfl (by decide) rfl (fun _ => rfl) rfl
  | .mem (.zp _) => one_byte rfl (by decide) rfl (fun _ => rfl) rfl
  | .mem (.dir _) => one_byte rfl (by decide) rfl (fun _ => rfl) rfl
  | .mem (.idx .X false _) => one_byte rfl (by decide) rfl (fun _ => rfl) rfl
  | .mem (.idx .X true _) => none_known rfl
  | .mem (.idx .Y false _) => page_18 rfl rfl (fun _ => rfl) rfl
  | .mem (.idx .Y true _) => none_known rfl
  | .mem (.idx .Z _ _) => none_known rfl
  | .mem (.rel _) => none_known rfl

theorem cmph (o : Src8) : Statement (.cmph o) := none_known rfl

theorem cmpl (o : Src8) : Statement (.cmpl o) := none_known rfl

theorem bita : ∀ (o : Src8), Statement (.bita o)
  | .imm _ => one_byte rfl (by decide) rfl (fun _ => rfl) rfl
  | .mem (.zp _) => one_byte rfl (by decide) rfl (fun _ => rfl) rfl
  | .mem (.dir _) => one_byte rfl (by decide) rfl (fun _ => rfl) rfl
  | .mem (.idx .X false _) => one_byte rfl (by decide) rfl (fun _ => rfl) rfl
  | .mem (.idx .X true _) => none_known rfl
  | .mem (.idx .Y false _) => page_18 rfl rfl (fun _ => rfl) rfl
  | .mem (.idx .Y true _) => none_known rfl
  | .mem (.idx .Z _ _) => none_known rfl
  | .mem (.rel _) => none_known rfl

theorem bitb : ∀ (o : Src8), Statement (.bitb o)
  | .imm _ => one_byte rfl (by decide) rfl (fun _ => rfl) rfl
  | .mem (.zp _) => one_byte rfl (by decide) rfl (fun _ => rfl) rfl
  | .mem (.dir _) => one_byte rfl (by decide) rfl (fun _ => rfl) rfl
  | .mem (.idx .X false _) => one_byte rfl (by decide) rfl (fun _ => rfl) rfl
  | .mem (.idx .X true _) => none_known rfl
  | .mem (.idx .Y false _) => page_18 rfl rfl (fun _ => rfl) rfl
  | .mem (.idx .Y true _) => none_known rfl
  | .mem (.idx .Z _ _) => none_known rfl
  | .mem (.rel _) => none_known rfl

theorem bith (o : Src8) : Statement (.bith o) := none_known rfl

theorem bitl (o : Src8) : Statement (.bitl o) := none_known rfl

theorem anda : ∀ (o : Src8), Statement (.anda o)
  | .imm _ => one_byte rfl (by decide) rfl (fun _ => rfl) rfl
  | .mem (.zp _) => one_byte rfl (by decide) rfl (fun _ => rfl) rfl
  | .mem (.dir _) => one_byte rfl (by decide) rfl (fun _ => rfl) rfl
  | .mem (.idx .X false _) => one_byte rfl (by decide) rfl (fun _ => rfl) rfl
  | .mem (.idx .X true _) => none_known rfl
  | .mem (.idx .Y false _) => page_18 rfl rfl (fun _ => rfl) rfl
  | .mem (.idx .Y true _) => none_known rfl
  | .mem (.idx .Z _ _) => none_known rfl
  | .mem (.rel _) => none_known rfl

theorem andb : ∀ (o : Src8), Statement (.andb o)
  | .imm _ => one_byte rfl (by decide) rfl (fun _ => rfl) rfl
  | .mem (.zp _) => one_byte rfl (by decide) rfl (fun _ => rfl) rfl
  | .mem (.dir _) => one_byte rfl (by decide) rfl (fun _ => rfl) rfl
  | .mem (.idx .X false _) => one_byte rfl (by decide) rfl (fun _ => rfl) rfl
  | .mem (.idx .X true _) => none_known rfl
  | .mem (.idx .Y false _) => page_18 rfl rfl (fun _ => rfl) rfl
  | .mem (.idx .Y true _) => none_known rfl
  | .mem (.idx .Z _ _) => none_known rfl
  | .mem (.rel _) => none_known rfl

theorem andh (o : Src8) : Statement (.andh o) := none_known rfl

theorem andl (o : Src8) : Statement (.andl o) := none_known rfl

theorem oraa : ∀ (o : Src8), Statement (.oraa o)
  | .imm _ => one_byte rfl (by decide) rfl (fun _ => rfl) rfl
  | .mem (.zp _) => one_byte rfl (by decide) rfl (fun _ => rfl) rfl
  | .mem (.dir _) => one_byte rfl (by decide) rfl (fun _ => rfl) rfl
  | .mem (.idx .X false _) => one_byte rfl (by decide) rfl (fun _ => rfl) rfl
  | .mem (.idx .X true _) => none_known rfl
  | .mem (.idx .Y false _) => page_18 rfl rfl (fun _ => rfl) rfl
  | .mem (.idx .Y true _) => none_known rfl
  | .mem (.idx .Z _ _) => none_known rfl
  | .mem (.rel _) => none_known rfl

theorem orab : ∀ (o : Src8), Statement (.orab o)
  | .imm _ => one_byte rfl (by decide) rfl (fun _ => rfl) rfl
  | .mem (.zp _) => one_byte rfl (by decide) rfl (fun _ => rfl) rfl
  | .mem (.dir _) => one_byte rfl (by decide) rfl (fun _ => rfl) rfl
  | .mem (.idx .X false _) => one_byte rfl (by decide) rfl (fun _ => rfl) rfl
  | .mem (.idx .X true _) => none_known rfl
  | .mem (.idx .Y false _) => page_18 rfl rfl (fun _ => rfl) rfl
  | .mem (.idx .Y true _) => none_known rfl
  | .mem (.idx .Z _ _) => none_known rfl
  | .mem (.rel _) => none_known rfl

theorem orah (o : Src8) : Statement (.orah o) := none_known rfl

theorem oral (o : Src8) : Statement (.oral o) := none_known rfl

theorem eora : ∀ (o : Src8), Statement (.eora o)
  | .imm _ => one_byte rfl (by decide) rfl (fun _ => rfl) rfl
  | .mem (.zp _) => one_byte rfl (by decide) rfl (fun _ => rfl) rfl
  | .mem (.dir _) => one_byte rfl (by decide) rfl (fun _ => rfl) rfl
  | .mem (.idx .X false _) => one_byte rfl (by decide) rfl (fun _ => rfl) rfl
  | .mem (.idx .X true _) => none_known rfl
  | .mem (.idx .Y false _) => page_18 rfl rfl (fun _ => rfl) rfl
  | .mem (.idx .Y true _) => none_known rfl
  | .mem (.idx .Z _ _) => none_known rfl
  | .mem (.rel _) => none_known rfl

theorem eorb : ∀ (o : Src8), Statement (.eorb o)
  | .imm _ => one_byte rfl (by decide) rfl (fun _ => rfl) rfl
  | .mem (.zp _) => one_byte rfl (by decide) rfl (fun _ => rfl) rfl
  | .mem (.dir _) => one_byte rfl (by decide) rfl (fun _ => rfl) rfl
  | .mem (.idx .X false _) => one_byte rfl (by decide) rfl (fun _ => rfl) rfl
  | .mem (.idx .X true _) => none_known rfl
  | .mem (.idx .Y false _) => page_18 rfl rfl (fun _ => rfl) rfl
  | .mem (.idx .Y true _) => none_known rfl
  | .mem (.idx .Z _ _) => none_known rfl
  | .mem (.rel _) => none_known rfl

theorem eorh (o : Src8) : Statement (.eorh o) := none_known rfl

theorem eorl (o : Src8) : Statement (.eorl o) := none_known rfl

theorem inc : ∀ (m : MemOp), Statement (.inc m)
  | .zp _ => none_known rfl
  | .dir _ => one_byte rfl (by decide) rfl (fun _ => rfl) rfl
  | .idx .X false _ => one_byte rfl (by decide) rfl (fun _ => rfl) rfl
  | .idx .X true _ => none_known rfl
  | .idx .Y false _ => page_18 rfl rfl (fun _ => rfl) rfl
  | .idx .Y true _ => none_known rfl
  | .idx .Z _ _ => none_known rfl
  | .rel _ => none_known rfl

theorem inca : Statement (.inca) := one_byte rfl (by decide) rfl (fun _ => rfl) rfl

theorem incb : Statement (.incb) := one_byte rfl (by decide) rfl (fun _ => rfl) rfl

theorem inch : Statement (.inch) := none_known rfl

theorem incl : Statement (.incl) := none_known rfl

theorem dec : ∀ (m : MemOp), Statement (.dec m)
  | .zp _ => none_known rfl
  | .dir _ => one_byte rfl (by decide) rfl (fun _ => rfl) rfl
  | .idx .X false _ => one_byte rfl (by decide) rfl (fun _ => rfl) rfl
  | .idx .X true _ => none_known rfl
  | .idx .Y false _ => page_18 rfl rfl (fun _ => rfl) rfl
  | .idx .Y true _ => none_known rfl
  | .idx .Z _ _ => none_known rfl
  | .rel _ => none_known rfl

theorem deca : Statement (.deca) := one_byte rfl (by decide) rfl (fun _ => rfl) rfl

theorem decb : Statement (.decb) := one_byte rfl (by decide) rfl (fun _ => rfl) rfl

theorem dech : Statement (.dech) := none_known rfl

theorem decl : Statement (.decl) := none_known rfl

theorem neg : ∀ (m : MemOp), Statement (.neg m)
  | .zp _ => none_known rfl
  | .dir _ => one_byte rfl (by decide) rfl (fun _ => rfl) rfl
  | .idx .X false _ => one_byte rfl (by decide) rfl (fun _ => rfl) rfl
  | .idx .X true _ => none_known rfl
  | .idx .Y false _ => page_18 rfl rfl (fun _ => rfl) rfl
  | .idx .Y true _ => none_known rfl
  | .idx .Z _ _ => none_known rfl
  | .rel _ => none_known rfl

theorem nega : Statement (.nega) := one_byte rfl (by decide) rfl (fun _ => rfl) rfl

theorem negb : Statement (.negb) := one_byte rfl (by decide) rfl (fun _ => rfl) rfl

theorem negh : Statement (.negh) := none_known rfl

theorem negl : Statement (.negl) := none_known rfl

theorem com : ∀ (m : MemOp), Statement (.com m)
  | .zp _ => none_known rfl
  | .dir _ => one_byte rfl (by decide) rfl (fun _ => rfl) rfl
  | .idx .X false _ => one_byte rfl (by decide) rfl (fun _ => rfl) rfl
  | .idx .X true _ => none_known rfl
  | .idx .Y false _ => page_18 rfl rfl (fun _ => rfl) rfl
  | .idx .Y true _ => none_known rfl
  | .idx .Z _ _ => none_known rfl
  | .rel _ => none_known rfl

theorem coma : Statement (.coma) := one_byte rfl (by decide) rfl (fun _ => rfl) rfl

theorem comb : Statement (.comb) := one_byte rfl (by decide) rfl (fun _ => rfl) rfl

theorem comh : Statement (.comh) := none_known rfl

theorem coml : Statement (.coml) := none_known rfl

theorem clr : ∀ (m : MemOp), Statement (.clr m)
  | .zp _ => none_known rfl
  | .dir _ => one_byte rfl (by decide) rfl (fun _ => rfl) rfl
  | .idx .X false _ => one_byte rfl (by decide) rfl (fun _ => rfl) rfl
  | .idx .X true _ => none_known rfl
  | .idx .Y false _ => page_18 rfl rfl (fun _ => rfl) rfl
  | .idx .Y true _ => none_known rfl
  | .idx .Z _ _ => none_known rfl
  | .rel _ => none_known rfl

theorem clra : Statement (.clra) := one_byte rfl (by decide) rfl (fun _ => rfl) rfl

theorem clrb : Statement (.clrb) := one_byte rfl (by decide) rfl (fun _ => rfl) rfl

theorem clrh : Statement (.clrh) := none_known rfl

theorem clrl : Statement (.clrl) := none_known rfl

theorem bset : ∀ (m : MemOp) (mask : Byte), Statement (.bset m mask)
  | .zp _, _ => one_byte rfl (by decide) rfl (fun _ => rfl) rfl
  | .dir _, _ => none_known rfl
  | .idx .X false _, _ => one_byte rfl (by decide) rfl (fun _ => rfl) rfl
  | .idx .X true _, _ => none_known rfl
  | .idx .Y false _, _ => page_18 rfl rfl (fun _ => rfl) rfl
  | .idx .Y true _, _ => none_known rfl
  | .idx .Z _ _, _ => none_known rfl
  | .rel _, _ => none_known rfl

theorem bclr : ∀ (m : MemOp) (mask : Byte), Statement (.bclr m mask)
  | .zp _, _ => one_byte rfl (by decide) rfl (fun _ => rfl) rfl
  | .dir _, _ => none_known rfl
  | .idx .X false _, _ => one_byte rfl (by decide) rfl (fun _ => rfl) rfl
  | .idx .X true _, _ => none_known rfl
  | .idx .Y false _, _ => page_18 rfl rfl (fun _ => rfl) rfl
  | .idx .Y true _, _ => none_known rfl
  | .idx .Z _ _, _ => none_known rfl
  | .rel _, _ => none_known rfl

theorem tst : ∀ (m : MemOp), Statement (.tst m)
  | .zp _ => none_known rfl
  | .dir _ => one_byte rfl (by decide) rfl (fun _ => rfl) rfl
  | .idx .X false _ => one_byte rfl (by decide) rfl (fun _ => rfl) rfl
  | .idx .X true _ => none_known rfl
  | .idx .Y false _ => page_18 rfl rfl (fun _ => rfl) rfl
  | .idx .Y true _ => none_known rfl
  | .idx .Z _ _ => none_known rfl
  | .rel _ => none_known rfl

theorem tsta : Statement (.tsta) := one_byte rfl (by decide) rfl (fun _ => rfl) rfl

theorem tstb : Statement (.tstb) := one_byte rfl (by decide) rfl (fun _ => rfl) rfl

theorem tsth : Statement (.tsth) := none_known rfl

theorem tstl : Statement (.tstl) := none_known rfl

theorem lsr : ∀ (m : MemOp), Statement (.lsr m)
  | .zp _ => none_known rfl
  | .dir _ => one_byte rfl (by decide) rfl (fun _ => rfl) rfl
  | .idx .X false _ => one_byte rfl (by decide) rfl (fun _ => rfl) rfl
  | .idx .X true _ => none_known rfl
  | .idx .Y false _ => page_18 rfl rfl (fun _ => rfl) rfl
  | .idx .Y true _ => none_known rfl
  | .idx .Z _ _ => none_known rfl
  | .rel _ => none_known rfl

theorem lsra : Statement (.lsra) := one_byte rfl (by decide) rfl (fun _ => rfl) rfl

theorem lsrb : Statement (.lsrb) := one_byte rfl (by decide) rfl (fun _ => rfl) rfl

theorem lsrh : Statement (.lsrh) := none_known rfl

theorem lsrl : Statement (.lsrl) := none_known rfl

theorem asl : ∀ (m : MemOp), Statement (.asl m)
  | .zp _ => none_known rfl
  | .dir _ => one_byte rfl (by decide) rfl (fun _ => rfl) rfl
  | .idx .X false _ => one_byte rfl (by decide) rfl (fun _ => rfl) rfl
  | .idx .X true _ => none_known rfl
  | .idx .Y false _ => page_18 rfl rfl (fun _ => rfl) rfl
  | .idx .Y true _ => none_known rfl
  | .idx .Z _ _ => none_known rfl
  | .rel _ => none_known rfl

theorem asla : Statement (.asla) := one_byte rfl (by decide) rfl (fun _ => rfl) rfl

theorem aslb : Statement (.aslb) := one_byte rfl (by decide) rfl (fun _ => rfl) rfl

theorem aslh : Statement (.aslh) := none_known rfl

theorem asll : Statement (.asll) := none_known rfl

theorem asr : ∀ (m : MemOp), Statement (.asr m)
  | .zp _ => none_known rfl
  | .dir _ => one_byte rfl (by decide) rfl (fun _ => rfl) rfl
  | .idx .X false _ => one_byte rfl (by decide) rfl (fun _ => rfl) rfl
  | .idx .X true _ => none_known rfl
  | .idx .Y false _ => page_18 rfl rfl (fun _ => rfl) rfl
  | .idx .Y true _ => none_known rfl
  | .idx .Z _ _ => none_known rfl
  | .rel _ => none_known rfl

theorem asra : Statement (.asra) := one_byte rfl (by decide) rfl (fun _ => rfl) rfl

theorem asrb : Statement (.asrb) := one_byte rfl (by decide) rfl (fun _ => rfl) rfl

theorem asrh : Statement (.asrh) := none_known rfl

theorem asrl : Statement (.asrl) := none_known rfl

theorem ror : ∀ (m : MemOp), Statement (.ror m)
  | .zp _ => none_known rfl
  | .dir _ => one_byte rfl (by decide) rfl (fun _ => rfl) rfl
  | .idx .X false _ => one_byte rfl (by decide) rfl (fun _ => rfl) rfl
  | .idx .X true _ => none_known rfl
  | .idx .Y false _ => page_18 rfl rfl (fun _ => rfl) rfl
  | .idx .Y true _ => none_known rfl
  | .idx .Z _ _ => none_known rfl
  | .rel _ => none_known rfl

theorem rora : Statement (.rora) := one_byte rfl (by decide) rfl (fun _ => rfl) rfl

theorem rorb : Statement (.rorb) := one_byte rfl (by decide) rfl (fun _ => rfl) rfl

theorem rorh : Statement (.rorh) := none_known rfl

theorem rorl : Statement (.rorl) := none_known rfl

theorem rol : ∀ (m : MemOp), Statement (.rol m)
  | .zp _ => none_known rfl
  | .dir _ => one_byte rfl (by decide) rfl (fun _ => rfl) rfl
  | .idx .X false _ => one_byte rfl (by decide) rfl (fun _ => rfl) rfl
  | .idx .X true _ => none_known rfl
  | .idx .Y false _ => page_18 rfl rfl (fun _ => rfl) rfl
  | .idx .Y true _ => none_known rfl
  | .idx .Z _ _ => none_known rfl
  | .rel _ => none_known rfl

theorem rola : Statement (.rola) := one_byte rfl (by decide) rfl (fun _ => rfl) rfl

theorem rolb : Statement (.rolb) := one_byte rfl (by decide) rfl (fun _ => rfl) rfl

theorem rolh : Statement (.rolh) := none_known rfl

theorem roll : Statement (.roll) := none_known rfl

theorem aba : Statement (.aba) := one_byte rfl (by decide) rfl (fun _ => rfl) rfl

theorem alh : Statement (.alh) := none_known rfl

theorem sba : Statement (.sba) := one_byte rfl (by decide) rfl (fun _ => rfl) rfl

theorem slh : Statement (.slh) := none_known rfl

theorem cba : Statement (.cba) := one_byte rfl (by decide) rfl (fun _ => rfl) rfl

theorem clh : Statement (.clh) := none_known rfl

theorem sxtb : Statement (.sxtb) := none_known rfl

theorem sxtl : Statement (.sxtl) := none_known rfl

theorem mul : Statement (.mul) := one_byte rfl (by decide) rfl (fun _ => rfl) rfl

theorem daa : Statement (.daa) := one_byte rfl (by decide) rfl (fun _ => rfl) rfl

theorem clc : Statement (.clc) := one_byte rfl (by decide) rfl (fun _ => rfl) rfl

theorem sec : Statement (.sec) := one_byte rfl (by decide) rfl (fun _ => rfl) rfl

theorem clv : Statement (.clv) := one_byte rfl (by decide) rfl (fun _ => rfl) rfl

theorem sev : Statement (.sev) := one_byte rfl (by decide) rfl (fun _ => rfl) rfl

theorem tap : Statement (.tap) := one_byte rfl (by decide) rfl (fun _ => rfl) rfl

theorem tpa : Statement (.tpa) := one_byte rfl (by decide) rfl (fun _ => rfl) rfl

theorem ldd : ∀ (o : Src16), Statement (.ldd o)
  | .imm _ => one_byte rfl (by decide) rfl (fun _ => rfl) rfl
  | .mem (.zp _) => one_byte rfl (by decide) rfl (fun _ => rfl) rfl
  | .mem (.dir _) => one_byte rfl (by decide) rfl (fun _ => rfl) rfl
  | .mem (.idx .X false _) => one_byte rfl (by decide) rfl (fun _ => rfl) rfl
  | .mem (.idx .X true _) => none_known rfl
  | .mem (.idx .Y false _) => page_18 rfl rfl (fun _ => rfl) rfl
  | .mem (.idx .Y true _) => none_known rfl
  | .mem (.idx .Z _ _) => none_known rfl
  | .mem (.rel _) => none_known rfl

theorem lde (o : Src16) : Statement (.lde o) := none_known rfl

theorem std : ∀ (m : MemOp), Statement (.std m)
  | .zp _ => one_byte rfl (by decide) rfl (fun _ => rfl) rfl
  | .dir _ => one_byte rfl (by decide) rfl (fun _ => rfl) rfl
  | .idx .X false _ => one_byte rfl (by decide) rfl (fun _ => rfl) rfl
  | .idx .X true _ => none_known rfl
  | .idx .Y false _ => page_18 rfl rfl (fun _ => rfl) rfl
  | .idx .Y true _ => none_known rfl
  | .idx .Z _ _ => none_known rfl
  | .rel _ => none_known rfl

theorem ste (m : MemOp) : Statement (.ste m) := none_known rfl

theorem xgde : Statement (.xgde) := none_known rfl

theorem addd : ∀ (o : Src16), Statement (.addd o)
  | .imm _ => one_byte rfl (by decide) rfl (fun _ => rfl) rfl
  | .mem (.zp _) => one_byte rfl (by decide) rfl (fun _ => rfl) rfl
  | .mem (.dir _) => one_byte rfl (by decide) rfl (fun _ => rfl) rfl
  | .mem (.idx .X false _) => one_byte rfl (by decide) rfl (fun _ => rfl) rfl
  | .mem (.idx .X true _) => none_known rfl
  | .mem (.idx .Y false _) => page_18 rfl rfl (fun _ => rfl) rfl
  | .mem (.idx .Y true _) => none_known rfl
  | .mem (.idx .Z _ _) => none_known rfl
  | .mem (.rel _) => none_known rfl

theorem adde (o : Src16) : Statement (.adde o) := none_known rfl

theorem subd : ∀ (o : Src16), Statement (.subd o)
  | .imm _ => one_byte rfl (by decide) rfl (fun _ => rfl) rfl
  | .mem (.zp _) => one_byte rfl (by decide) rfl (fun _ => rfl) rfl
  | .mem (.dir _) => one_byte rfl (by decide) rfl (fun _ => rfl) rfl
  | .mem (.idx .X false _) => one_byte rfl (by decide) rfl (fun _ => rfl) rfl
  | .mem (.idx .X true _) => none_known rfl
  | .mem (.idx .Y false _) => page_18 rfl rfl (fun _ => rfl) rfl
  | .mem (.idx .Y true _) => none_known rfl
  | .mem (.idx .Z _ _) => none_known rfl
  | .mem (.rel _) => none_known rfl

theorem sube (o : Src16) : Statement (.sube o) := none_known rfl

theorem cmpd : ∀ (o : Src16), Statement (.cmpd o)
  | .imm _ => page_1A rfl rfl (fun _ => rfl) rfl
  | .mem (.zp _) => page_1A rfl rfl (fun _ => rfl) rfl
  | .mem (.dir _) => page_1A rfl rfl (fun _ => rfl) rfl
  | .mem (.idx .X false _) => page_1A rfl rfl (fun _ => rfl) rfl
  | .mem (.idx .X true _) => none_known rfl
  | .mem (.idx .Y false _) => page_CD rfl rfl (fun _ => rfl) rfl
  | .mem (.idx .Y true _) => none_known rfl
  | .mem (.idx .Z _ _) => none_known rfl
  | .mem (.rel _) => none_known rfl

theorem cmpe (o : Src16) : Statement (.cmpe o) := none_known rfl

theorem aed : Statement (.aed) := none_known rfl

theorem sed : Statement (.sed) := none_known rfl

theorem ced : Statement (.ced) := none_known rfl

theorem med : Statement (.med) := none_known rfl

theorem lsrd : Statement (.lsrd) := one_byte rfl (by decide) rfl (fun _ => rfl) rfl

theorem lsre : Statement (.lsre) := none_known rfl

theorem asrd : Statement (.asrd) := none_known rfl

theorem asre : Statement (.asre) := none_known rfl

theorem asld : Statement (.asld) := one_byte rfl (by decide) rfl (fun _ => rfl) rfl

theorem asle : Statement (.asle) := none_known rfl

theorem idiv : Statement (.idiv) := one_byte rfl (by decide) rfl (fun _ => rfl) rfl

theorem fdiv : Statement (.fdiv) := one_byte rfl (by decide) rfl (fun _ => rfl) rfl

theorem ldx : ∀ (o : Src16), Statement (.ldx o)
  | .imm _ => one_byte rfl (by decide) rfl (fun _ => rfl) rfl
  | .mem (.zp _) => one_byte rfl (by decide) rfl (fun _ => rfl) rfl
  | .mem (.dir _) => one_byte rfl (by decide) rfl (fun _ => rfl) rfl
  | .mem (.idx .X false _) => one_byte rfl (by decide) rfl (fun _ => rfl) rfl
  | .mem (.idx .X true _) => none_known rfl
  | .mem (.idx .Y false _) => page_CD rfl rfl (fun _ => rfl) rfl
  | .mem (.idx .Y true _) => none_known rfl
  | .mem (.idx .Z _ _) => none_known rfl
  | .mem (.rel _) => none_known rfl

theorem ldy : ∀ (o : Src16), Statement (.ldy o)
  | .imm _ => page_18 rfl rfl (fun _ => rfl) rfl
  | .mem (.zp _) => page_18 rfl rfl (fun _ => rfl) rfl
  | .mem (.dir _) => page_18 rfl rfl (fun _ => rfl) rfl
  | .mem (.idx .X false _) => page_1A rfl rfl (fun _ => rfl) rfl
  | .mem (.idx .X true _) => none_known rfl
  | .mem (.idx .Y false _) => page_18 rfl rfl (fun _ => rfl) rfl
  | .mem (.idx .Y true _) => none_known rfl
  | .mem (.idx .Z _ _) => none_known rfl
  | .mem (.rel _) => none_known rfl

theorem ldz (o : Src16) : Statement (.ldz o) := none_known rfl

theorem stx : ∀ (m : MemOp), Statement (.stx m)
  | .zp _ => one_byte rfl (by decide) rfl (fun _ => rfl) rfl
  | .dir _ => one_byte rfl (by decide) rfl (fun _ => rfl) rfl
  | .idx .X false _ => one_byte rfl (by decide) rfl (fun _ => rfl) rfl
  | .idx .X true _ => none_known rfl
  | .idx .Y false _ => page_CD rfl rfl (fun _ => rfl) rfl
  | .idx .Y true _ => none_known rfl
  | .idx .Z _ _ => none_known rfl
  | .rel _ => none_known rfl

theorem sty : ∀ (m : MemOp), Statement (.sty m)
  | .zp _ => page_18 rfl rfl (fun _ => rfl) rfl
  | .dir _ => page_18 rfl rfl (fun _ => rfl) rfl
  | .idx .X false _ => page_1A rfl rfl (fun _ => rfl) rfl
  | .idx .X true _ => none_known rfl
  | .idx .Y false _ => page_18 rfl rfl (fun _ => rfl) rfl
  | .idx .Y true _ => none_known rfl
  | .idx .Z _ _ => none_known rfl
  | .rel _ => none_known rfl

theorem stz (m : MemOp) : Statement (.stz m) := none_known rfl

theorem pshx : Statement (.pshx) := one_byte rfl (by decide) rfl (fun _ => rfl) rfl

theorem pshy : Statement (.pshy) := page_18 rfl rfl (fun _ => rfl) rfl

theorem pshz : Statement (.pshz) := none_known rfl

theorem pulx : Statement (.pulx) := one_byte rfl (by decide) rfl (fun _ => rfl) rfl

theorem puly : Statement (.puly) := page_18 rfl rfl (fun _ => rfl) rfl

theorem pulz : Statement (.pulz) := none_known rfl

theorem xgdx : Statement (.xgdx) := one_byte rfl (by decide) rfl (fun _ => rfl) rfl

theorem xgdy : Statement (.xgdy) := page_18 rfl rfl (fun _ => rfl) rfl

theorem xgdz : Statement (.xgdz) := none_known rfl

theorem xgex : Statement (.xgex) := none_known rfl

theorem xgey : Statement (.xgey) := none_known rfl

theorem xgez : Statement (.xgez) := none_known rfl

theorem cpx : ∀ (o : Src16), Statement (.cpx o)
  | .imm _ => one_byte rfl (by decide) rfl (fun _ => rfl) rfl
  | .mem (.zp _) => one_byte rfl (by decide) rfl (fun _ => rfl) rfl
  | .mem (.dir _) => one_byte rfl (by decide) rfl (fun _ => rfl) rfl
  | .mem (.idx .X false _) => one_byte rfl (by decide) rfl (fun _ => rfl) rfl
  | .mem (.idx .X true _) => none_known rfl
  | .mem (.idx .Y false _) => page_CD rfl rfl (fun _ => rfl) rfl
  | .mem (.idx .Y true _) => none_known rfl
  | .mem (.idx .Z _ _) => none_known rfl
  | .mem (.rel _) => none_known rfl

theorem cpy : ∀ (o : Src16), Statement (.cpy o)
  | .imm _ => page_18 rfl rfl (fun _ => rfl) rfl
  | .mem (.zp _) => page_18 rfl rfl (fun _ => rfl) rfl
  | .mem (.dir _) => page_18 rfl rfl (fun _ => rfl) rfl
  | .mem (.idx .X false _) => page_1A rfl rfl (fun _ => rfl) rfl
  | .mem (.idx .X true _) => none_known rfl
  | .mem (.idx .Y false _) => page_18 rfl rfl (fun _ => rfl) rfl
  | .mem (.idx .Y true _) => none_known rfl
  | .mem (.idx .Z _ _) => none_known rfl
  | .mem (.rel _) => none_known rfl

theorem cpz (o : Src16) : Statement (.cpz o) := none_known rfl

theorem inx : Statement (.inx) := one_byte rfl (by decide) rfl (fun _ => rfl) rfl

theorem iny : Statement (.iny) := page_18 rfl rfl (fun _ => rfl) rfl

theorem inz : Statement (.inz) := none_known rfl

theorem dex : Statement (.dex) := one_byte rfl (by decide) rfl (fun _ => rfl) rfl

theorem dey : Statement (.dey) := page_18 rfl rfl (fun _ => rfl) rfl

theorem dez : Statement (.dez) := none_known rfl

theorem addx (o : Src16) : Statement (.addx o) := none_known rfl

theorem addy (o : Src16) : Statement (.addy o) := none_known rfl

theorem addz (o : Src16) : Statement (.addz o) := none_known rfl

theorem abx : Statement (.abx) := one_byte rfl (by decide) rfl (fun _ => rfl) rfl

theorem aby : Statement (.aby) := page_18 rfl rfl (fun _ => rfl) rfl

theorem abz : Statement (.abz) := none_known rfl

theorem lds : ∀ (o : Src16), Statement (.lds o)
  | .imm _ => one_byte rfl (by decide) rfl (fun _ => rfl) rfl
  | .mem (.zp _) => one_byte rfl (by decide) rfl (fun _ => rfl) rfl
  | .mem (.dir _) => one_byte rfl (by decide) rfl (fun _ => rfl) rfl
  | .mem (.idx .X false _) => one_byte rfl (by decide) rfl (fun _ => rfl) rfl
  | .mem (.idx .X true _) => none_known rfl
  | .mem (.idx .Y false _) => page_18 rfl rfl (fun _ => rfl) rfl
  | .mem (.idx .Y true _) => none_known rfl
  | .mem (.idx .Z _ _) => none_known rfl
  | .mem (.rel _) => none_known rfl

theorem sts : ∀ (m : MemOp), Statement (.sts m)
  | .zp _ => one_byte rfl (by decide) rfl (fun _ => rfl) rfl
  | .dir _ => one_byte rfl (by decide) rfl (fun _ => rfl) rfl
  | .idx .X false _ => one_byte rfl (by decide) rfl (fun _ => rfl) rfl
  | .idx .X true _ => none_known rfl
  | .idx .Y false _ => page_18 rfl rfl (fun _ => rfl) rfl
  | .idx .Y true _ => none_known rfl
  | .idx .Z _ _ => none_known rfl
  | .rel _ => none_known rfl

theorem tsx : Statement (.tsx) := one_byte rfl (by decide) rfl (fun _ => rfl) rfl

theorem tsy : Statement (.tsy) := page_18 rfl rfl (fun _ => rfl) rfl

theorem tsz : Statement (.tsz) := none_known rfl

theorem txs : Statement (.txs) := one_byte rfl (by decide) rfl (fun _ => rfl) rfl

theorem tys : Statement (.tys) := page_18 rfl rfl (fun _ => rfl) rfl

theorem tzs : Statement (.tzs) := none_known rfl

theorem ins : Statement (.ins) := one_byte rfl (by decide) rfl (fun _ => rfl) rfl

theorem des : Statement (.des) := one_byte rfl (by decide) rfl (fun _ => rfl) rfl

theorem nop : Statement (.nop) := one_byte rfl (by decide) rfl (fun _ => rfl) rfl

theorem jmp : ∀ (m : MemOp), Statement (.jmp m)
  | .zp _ => none_known rfl
  | .dir _ => one_byte rfl (by decide) rfl (fun _ => rfl) rfl
  | .idx .X false _ => one_byte rfl (by decide) rfl (fun _ => rfl) rfl
  | .idx .X true _ => none_known rfl
  | .idx .Y false _ => page_18 rfl rfl (fun _ => rfl) rfl
  | .idx .Y true _ => none_known rfl
  | .idx .Z _ _ => none_known rfl
  | .rel _ => none_known rfl

theorem jsr : ∀ (m : MemOp), Statement (.jsr m)
  | .zp _ => one_byte rfl (by decide) rfl (fun _ => rfl) rfl
  | .dir _ => one_byte rfl (by decide) rfl (fun _ => rfl) rfl
  | .idx .X false _ => one_byte rfl (by decide) rfl (fun _ => rfl) rfl
  | .idx .X true _ => none_known rfl
  | .idx .Y false _ => page_18 rfl rfl (fun _ => rfl) rfl
  | .idx .Y true _ => none_known rfl
  | .idx .Z _ _ => none_known rfl
  | .rel _ => none_known rfl

theorem rts : Statement (.rts) := one_byte rfl (by decide) rfl (fun _ => rfl) rfl

theorem bsr (off : Byte) : Statement (.bsr off) := one_byte rfl (by decide) rfl (fun _ => rfl) rfl

theorem bra (off : Byte) : Statement (.bra off) := one_byte rfl (by decide) rfl (fun _ => rfl) rfl

theorem brset : ∀ (m : MemOp) (mask : Byte) (off : Byte), Statement (.brset m mask off)
  | .zp _, _, _ => one_byte rfl (by decide) rfl (fun _ => rfl) rfl
  | .dir _, _, _ => none_known rfl
  | .idx .X false _, _, _ => one_byte rfl (by decide) rfl (fun _ => rfl) rfl
  | .idx .X true _, _, _ => none_known rfl
  | .idx .Y false _, _, _ => page_18 rfl rfl (fun _ => rfl) rfl
  | .idx .Y true _, _, _ => none_known rfl
  | .idx .Z _ _, _, _ => none_known rfl
  | .rel _, _, _ => none_known rfl

theorem brclr : ∀ (m : MemOp) (mask : Byte) (off : Byte), Statement (.brclr m mask off)
  | .zp _, _, _ => one_byte rfl (by decide) rfl (fun _ => rfl) rfl
  | .dir _, _, _ => none_known rfl
  | .idx .X false _, _, _ => one_byte rfl (by decide) rfl (fun _ => rfl) rfl
  | .idx .X true _, _, _ => none_known rfl
  | .idx .Y false _, _, _ => page_18 rfl rfl (fun _ => rfl) rfl
  | .idx .Y true _, _, _ => none_known rfl
  | .idx .Z _ _, _, _ => none_known rfl
  | .rel _, _, _ => none_known rfl

theorem bmi (off : Byte) : Statement (.bmi off) := one_byte rfl (by decide) rfl (fun _ => rfl) rfl

theorem bpl (off : Byte) : Statement (.bpl off) := one_byte rfl (by decide) rfl (fun _ => rfl) rfl

theorem beq (off : Byte) : Statement (.beq off) := one_byte rfl (by decide) rfl (fun _ => rfl) rfl

theorem bne (off : Byte) : Statement (.bne off) := one_byte rfl (by decide) rfl (fun _ => rfl) rfl

theorem bcs (off : Byte) : Statement (.bcs off) := one_byte rfl (by decide) rfl (fun _ => rfl) rfl

theorem bcc (off : Byte) : Statement (.bcc off) := one_byte rfl (by decide) rfl (fun _ => rfl) rfl

theorem bvs (off : Byte) : Statement (.bvs off) := one_byte rfl (by decide) rfl (fun _ => rfl) rfl

theorem bvc (off : Byte) : Statement (.bvc off) := one_byte rfl (by decide) rfl (fun _ => rfl) rfl

theorem bgt (off : Byte) : Statement (.bgt off) := one_byte rfl (by decide) rfl (fun _ => rfl) rfl

theorem blt (off : Byte) : Statement (.blt off) := one_byte rfl (by decide) rfl (fun _ => rfl) rfl

theorem bge (off : Byte) : Statement (.bge off) := one_byte rfl (by decide) rfl (fun _ => rfl) rfl

theorem ble (off : Byte) : Statement (.ble off) := one_byte rfl (by decide) rfl (fun _ => rfl) rfl

theorem bhi (off : Byte) : Statement (.bhi off) := one_byte rfl (by decide) rfl (fun _ => rfl) rfl

theorem blo (off : Byte) : Statement (.blo off) := one_byte rfl (by decide) rfl (fun _ => rfl) rfl

theorem bhs (off : Byte) : Statement (.bhs off) := one_byte rfl (by decide) rfl (fun _ => rfl) rfl

theorem bls (off : Byte) : Statement (.bls off) := one_byte rfl (by decide) rfl (fun _ => rfl) rfl

theorem cli : Statement (.cli) := one_byte rfl (by decide) rfl (fun _ => rfl) rfl

theorem sei : Statement (.sei) := one_byte rfl (by decide) rfl (fun _ => rfl) rfl

theorem swi : Statement (.swi) := one_byte rfl (by decide) rfl (fun _ => rfl) rfl

theorem wai : Statement (.wai) := one_byte rfl (by decide) rfl (fun _ => rfl) rfl

theorem rti : Statement (.rti) := one_byte rfl (by decide) rfl (fun _ => rfl) rfl

theorem stop : Statement (.stop) := one_byte rfl (by decide) rfl (fun _ => rfl) rfl

theorem unrecognised : Statement (.unrecognised) := none_known rfl

end Sys2Proof.Laws.CodeFound
end

