-- ==== Sys2Proof/Laws/State.lean ====
section
/-! SUPPORT. One lemma per field per update of the state, so that no later proof unfolds a record update, and the same for
the register, flag and memory views. -/

namespace Sys2Proof.Machine

/-! ## Accumulators, double accumulators, index registers -/

@[simp] theorem State.setAcc_x (s : State) (r : Acc) (v : Byte) : (s.setAcc r v).x = s.x := by cases r <;> rfl
@[simp] theorem State.setAcc_y (s : State) (r : Acc) (v : Byte) : (s.setAcc r v).y = s.y := by cases r <;> rfl
@[simp] theorem State.setAcc_z (s : State) (r : Acc) (v : Byte) : (s.setAcc r v).z = s.z := by cases r <;> rfl
@[simp] theorem State.setAcc_sp (s : State) (r : Acc) (v : Byte) : (s.setAcc r v).sp = s.sp := by cases r <;> rfl
@[simp] theorem State.setAcc_pc (s : State) (r : Acc) (v : Byte) : (s.setAcc r v).pc = s.pc := by cases r <;> rfl
@[simp] theorem State.setAcc_ccr (s : State) (r : Acc) (v : Byte) : (s.setAcc r v).ccr = s.ccr := by cases r <;> rfl
@[simp] theorem State.setAcc_mem (s : State) (r : Acc) (v : Byte) : (s.setAcc r v).mem = s.mem := by cases r <;> rfl
@[simp] theorem State.setAcc_run (s : State) (r : Acc) (v : Byte) : (s.setAcc r v).run = s.run := by cases r <;> rfl
@[simp] theorem State.setAcc_inputs (s : State) (r : Acc) (v : Byte) : (s.setAcc r v).inputs = s.inputs := by cases r <;> rfl
@[simp] theorem State.setAcc_draws (s : State) (r : Acc) (v : Byte) : (s.setAcc r v).draws = s.draws := by cases r <;> rfl
@[simp] theorem State.setAcc_cfg (s : State) (r : Acc) (v : Byte) : (s.setAcc r v).cfg = s.cfg := by cases r <;> rfl
@[simp] theorem State.setAcc_opcodeAt (s : State) (r : Acc) (v : Byte) : (s.setAcc r v).opcodeAt = s.opcodeAt := by cases r <;> rfl
@[simp] theorem State.setAcc_operandAt (s : State) (r : Acc) (v : Byte) : (s.setAcc r v).operandAt = s.operandAt := by cases r <;> rfl

@[simp] theorem State.setDbl_x (s : State) (d : Dbl) (v : Word) : (s.setDbl d v).x = s.x := by cases d <;> rfl
@[simp] theorem State.setDbl_y (s : State) (d : Dbl) (v : Word) : (s.setDbl d v).y = s.y := by cases d <;> rfl
@[simp] theorem State.setDbl_z (s : State) (d : Dbl) (v : Word) : (s.setDbl d v).z = s.z := by cases d <;> rfl
@[simp] theorem State.setDbl_sp (s : State) (d : Dbl) (v : Word) : (s.setDbl d v).sp = s.sp := by cases d <;> rfl
@[simp] theorem State.setDbl_pc (s : State) (d : Dbl) (v : Word) : (s.setDbl d v).pc = s.pc := by cases d <;> rfl
@[simp] theorem State.setDbl_ccr (s : State) (d : Dbl) (v : Word) : (s.setDbl d v).ccr = s.ccr := by cases d <;> rfl
@[simp] theorem State.setDbl_mem (s : State) (d : Dbl) (v : Word) : (s.setDbl d v).mem = s.mem := by cases d <;> rfl
@[simp] theorem State.setDbl_run (s : State) (d : Dbl) (v : Word) : (s.setDbl d v).run = s.run := by cases d <;> rfl
@[simp] theorem State.setDbl_inputs (s : State) (d : Dbl) (v : Word) : (s.setDbl d v).inputs = s.inputs := by cases d <;> rfl
@[simp] theorem State.setDbl_draws (s : State) (d : Dbl) (v : Word) : (s.setDbl d v).draws = s.draws := by cases d <;> rfl
@[simp] theorem State.setDbl_cfg (s : State) (d : Dbl) (v : Word) : (s.setDbl d v).cfg = s.cfg := by cases d <;> rfl
@[simp] theorem State.setDbl_opcodeAt (s : State) (d : Dbl) (v : Word) : (s.setDbl d v).opcodeAt = s.opcodeAt := by cases d <;> rfl
@[simp] theorem State.setDbl_operandAt (s : State) (d : Dbl) (v : Word) : (s.setDbl d v).operandAt = s.operandAt := by cases d <;> rfl

@[simp] theorem State.setIreg_a (s : State) (r : IReg) (v : Word) : (s.setIreg r v).a = s.a := by cases r <;> rfl
@[simp] theorem State.setIreg_b (s : State) (r : IReg) (v : Word) : (s.setIreg r v).b = s.b := by cases r <;> rfl
@[simp] theorem State.setIreg_h (s : State) (r : IReg) (v : Word) : (s.setIreg r v).h = s.h := by cases r <;> rfl
@[simp] theorem State.setIreg_l (s : State) (r : IReg) (v : Word) : (s.setIreg r v).l = s.l := by cases r <;> rfl
@[simp] theorem State.setIreg_sp (s : State) (r : IReg) (v : Word) : (s.setIreg r v).sp = s.sp := by cases r <;> rfl
@[simp] theorem State.setIreg_pc (s : State) (r : IReg) (v : Word) : (s.setIreg r v).pc = s.pc := by cases r <;> rfl
@[simp] theorem State.setIreg_ccr (s : State) (r : IReg) (v : Word) : (s.setIreg r v).ccr = s.ccr := by cases r <;> rfl
@[simp] theorem State.setIreg_mem (s : State) (r : IReg) (v : Word) : (s.setIreg r v).mem = s.mem := by cases r <;> rfl
@[simp] theorem State.setIreg_run (s : State) (r : IReg) (v : Word) : (s.setIreg r v).run = s.run := by cases r <;> rfl
@[simp] theorem State.setIreg_inputs (s : State) (r : IReg) (v : Word) : (s.setIreg r v).inputs = s.inputs := by cases r <;> rfl
@[simp] theorem State.setIreg_draws (s : State) (r : IReg) (v : Word) : (s.setIreg r v).draws = s.draws := by cases r <;> rfl
@[simp] theorem State.setIreg_cfg (s : State) (r : IReg) (v : Word) : (s.setIreg r v).cfg = s.cfg := by cases r <;> rfl
@[simp] theorem State.setIreg_opcodeAt (s : State) (r : IReg) (v : Word) : (s.setIreg r v).opcodeAt = s.opcodeAt := by cases r <;> rfl
@[simp] theorem State.setIreg_operandAt (s : State) (r : IReg) (v : Word) : (s.setIreg r v).operandAt = s.operandAt := by cases r <;> rfl

/-! ## Memory and the stack -/

@[simp] theorem State.write8_a (s : State) (p : Word) (v : Byte) : (s.write8 p v).a = s.a := rfl
@[simp] theorem State.write8_b (s : State) (p : Word) (v : Byte) : (s.write8 p v).b = s.b := rfl
@[simp] theorem State.write8_h (s : State) (p : Word) (v : Byte) : (s.write8 p v).h = s.h := rfl
@[simp] theorem State.write8_l (s : State) (p : Word) (v : Byte) : (s.write8 p v).l = s.l := rfl
@[simp] theorem State.write8_x (s : State) (p : Word) (v : Byte) : (s.write8 p v).x = s.x := rfl
@[simp] theorem State.write8_y (s : State) (p : Word) (v : Byte) : (s.write8 p v).y = s.y := rfl
@[simp] theorem State.write8_z (s : State) (p : Word) (v : Byte) : (s.write8 p v).z = s.z := rfl
@[simp] theorem State.write8_sp (s : State) (p : Word) (v : Byte) : (s.write8 p v).sp = s.sp := rfl
@[simp] theorem State.write8_pc (s : State) (p : Word) (v : Byte) : (s.write8 p v).pc = s.pc := rfl
@[simp] theorem State.write8_ccr (s : State) (p : Word) (v : Byte) : (s.write8 p v).ccr = s.ccr := rfl
@[simp] theorem State.write8_run (s : State) (p : Word) (v : Byte) : (s.write8 p v).run = s.run := rfl
@[simp] theorem State.write8_inputs (s : State) (p : Word) (v : Byte) : (s.write8 p v).inputs = s.inputs := rfl
@[simp] theorem State.write8_draws (s : State) (p : Word) (v : Byte) : (s.write8 p v).draws = s.draws := rfl
@[simp] theorem State.write8_cfg (s : State) (p : Word) (v : Byte) : (s.write8 p v).cfg = s.cfg := rfl
@[simp] theorem State.write8_opcodeAt (s : State) (p : Word) (v : Byte) : (s.write8 p v).opcodeAt = s.opcodeAt := rfl
@[simp] theorem State.write8_operandAt (s : State) (p : Word) (v : Byte) : (s.write8 p v).operandAt = s.operandAt := rfl

@[simp] theorem State.write16_a (s : State) (p v : Word) : (s.write16 p v).a = s.a := rfl
@[simp] theorem State.write16_b (s : State) (p v : Word) : (s.write16 p v).b = s.b := rfl
@[simp] theorem State.write16_h (s : State) (p v : Word) : (s.write16 p v).h = s.h := rfl
@[simp] theorem State.write16_l (s : State) (p v : Word) : (s.write16 p v).l = s.l := rfl
@[simp] theorem State.write16_x (s : State) (p v : Word) : (s.write16 p v).x = s.x := rfl
@[simp] theorem State.write16_y (s : State) (p v : Word) : (s.write16 p v).y = s.y := rfl
@[simp] theorem State.write16_z (s : State) (p v : Word) : (s.write16 p v).z = s.z := rfl
@[simp] theorem State.write16_sp (s : State) (p v : Word) : (s.write16 p v).sp = s.sp := rfl
@[simp] theorem State.write16_pc (s : State) (p v : Word) : (s.write16 p v).pc = s.pc := rfl
@[simp] theorem State.write16_ccr (s : State) (p v : Word) : (s.write16 p v).ccr = s.ccr := rfl
@[simp] theorem State.write16_run (s : State) (p v : Word) : (s.write16 p v).run = s.run := rfl
@[simp] theorem State.write16_inputs (s : State) (p v : Word) : (s.write16 p v).inputs = s.inputs := rfl
@[simp] theorem State.write16_draws (s : State) (p v : Word) : (s.write16 p v).draws = s.draws := rfl
@[simp] theorem State.write16_cfg (s : State) (p v : Word) : (s.write16 p v).cfg = s.cfg := rfl
@[simp] theorem State.write16_opcodeAt (s : State) (p v : Word) : (s.write16 p v).opcodeAt = s.opcodeAt := rfl
@[simp] theorem State.write16_operandAt (s : State) (p v : Word) : (s.write16 p v).operandAt = s.operandAt := rfl

@[simp] theorem State.write8_mem (s : State) (p : Word) (v : Byte) : (s.write8 p v).mem = s.mem.store s.cfg.memMap p v := rfl
@[simp] theorem State.write16_mem (s : State) (p v : Word) : (s.write16 p v).mem = s.mem.store16 s.cfg.memMap p v := rfl

@[simp] theorem State.push8_a (s : State) (v : Byte) : (s.push8 v).a = s.a := rfl
@[simp] theorem State.push8_b (s : State) (v : Byte) : (s.push8 v).b = s.b := rfl
@[simp] theorem State.push8_h (s : State) (v : Byte) : (s.push8 v).h = s.h := rfl
@[simp] theorem State.push8_l (s : State) (v : Byte) : (s.push8 v).l = s.l := rfl
@[simp] theorem State.push8_x (s : State) (v : Byte) : (s.push8 v).x = s.x := rfl
@[simp] theorem State.push8_y (s : State) (v : Byte) : (s.push8 v).y = s.y := rfl
@[simp] theorem State.push8_z (s : State) (v : Byte) : (s.push8 v).z = s.z := rfl
@[simp] theorem State.push8_pc (s : State) (v : Byte) : (s.push8 v).pc = s.pc := rfl
@[simp] theorem State.push8_ccr (s : State) (v : Byte) : (s.push8 v).ccr = s.ccr := rfl
@[simp] theorem State.push8_run (s : State) (v : Byte) : (s.push8 v).run = s.run := rfl
@[simp] theorem State.push8_inputs (s : State) (v : Byte) : (s.push8 v).inputs = s.inputs := rfl
@[simp] theorem State.push8_draws (s : State) (v : Byte) : (s.push8 v).draws = s.draws := rfl
@[simp] theorem State.push8_cfg (s : State) (v : Byte) : (s.push8 v).cfg = s.cfg := rfl
@[simp] theorem State.push8_opcodeAt (s : State) (v : Byte) : (s.push8 v).opcodeAt = s.opcodeAt := rfl
@[simp] theorem State.push8_operandAt (s : State) (v : Byte) : (s.push8 v).operandAt = s.operandAt := rfl

@[simp] theorem State.push8_sp (s : State) (v : Byte) : (s.push8 v).sp = s.sp - 1 := rfl
@[simp] theorem State.push8_mem (s : State) (v : Byte) : (s.push8 v).mem = s.mem.store s.cfg.memMap s.sp v := rfl

@[simp] theorem State.push16_a (s : State) (v : Word) : (s.push16 v).a = s.a := rfl
@[simp] theorem State.push16_b (s : State) (v : Word) : (s.push16 v).b = s.b := rfl
@[simp] theorem State.push16_h (s : State) (v : Word) : (s.push16 v).h = s.h := rfl
@[simp] theorem State.push16_l (s : State) (v : Word) : (s.push16 v).l = s.l := rfl
@[simp] theorem State.push16_x (s : State) (v : Word) : (s.push16 v).x = s.x := rfl
@[simp] theorem State.push16_y (s : State) (v : Word) : (s.push16 v).y = s.y := rfl
@[simp] theorem State.push16_z (s : State) (v : Word) : (s.push16 v).z = s.z := rfl
@[simp] theorem State.push16_pc (s : State) (v : Word) : (s.push16 v).pc = s.pc := rfl
@[simp] theorem State.push16_ccr (s : State) (v : Word) : (s.push16 v).ccr = s.ccr := rfl
@[simp] theorem State.push16_run (s : State) (v : Word) : (s.push16 v).run = s.run := rfl
@[simp] theorem State.push16_inputs (s : State) (v : Word) : (s.push16 v).inputs = s.inputs := rfl
@[simp] theorem State.push16_draws (s : State) (v : Word) : (s.push16 v).draws = s.draws := rfl
@[simp] theorem State.push16_cfg (s : State) (v : Word) : (s.push16 v).cfg = s.cfg := rfl
@[simp] theorem State.push16_opcodeAt (s : State) (v : Word) : (s.push16 v).opcodeAt = s.opcodeAt := rfl
@[simp] theorem State.push16_operandAt (s : State) (v : Word) : (s.push16 v).operandAt = s.operandAt := rfl

@[simp] theorem State.push16_sp (s : State) (v : Word) : (s.push16 v).sp = s.sp - 2 := rfl

@[simp] theorem State.dropped_a (s : State) (n : Word) : (s.dropped n).a = s.a := rfl
@[simp] theorem State.dropped_b (s : State) (n : Word) : (s.dropped n).b = s.b := rfl
@[simp] theorem State.dropped_h (s : State) (n : Word) : (s.dropped n).h = s.h := rfl
@[simp] theorem State.dropped_l (s : State) (n : Word) : (s.dropped n).l = s.l := rfl
@[simp] theorem State.dropped_x (s : State) (n : Word) : (s.dropped n).x = s.x := rfl
@[simp] theorem State.dropped_y (s : State) (n : Word) : (s.dropped n).y = s.y := rfl
@[simp] theorem State.dropped_z (s : State) (n : Word) : (s.dropped n).z = s.z := rfl
@[simp] theorem State.dropped_pc (s : State) (n : Word) : (s.dropped n).pc = s.pc := rfl
@[simp] theorem State.dropped_ccr (s : State) (n : Word) : (s.dropped n).ccr = s.ccr := rfl
@[simp] theorem State.dropped_mem (s : State) (n : Word) : (s.dropped n).mem = s.mem := rfl
@[simp] theorem State.dropped_run (s : State) (n : Word) : (s.dropped n).run = s.run := rfl
@[simp] theorem State.dropped_inputs (s : State) (n : Word) : (s.dropped n).inputs = s.inputs := rfl
@[simp] theorem State.dropped_draws (s : State) (n : Word) : (s.dropped n).draws = s.draws := rfl
@[simp] theorem State.dropped_cfg (s : State) (n : Word) : (s.dropped n).cfg = s.cfg := rfl
@[simp] theorem State.dropped_opcodeAt (s : State) (n : Word) : (s.dropped n).opcodeAt = s.opcodeAt := rfl
@[simp] theorem State.dropped_operandAt (s : State) (n : Word) : (s.dropped n).operandAt = s.operandAt := rfl

@[simp] theorem State.dropped_sp (s : State) (n : Word) : (s.dropped n).sp = s.sp + n := rfl

/-! ## Flags -/

@[simp] theorem State.setFlag_a (s : State) (f : Flag) (v : Bool) : (s.setFlag f v).a = s.a := rfl
@[simp] theorem State.setFlag_b (s : State) (f : Flag) (v : Bool) : (s.setFlag f v).b = s.b := rfl
@[simp] theorem State.setFlag_h (s : State) (f : Flag) (v : Bool) : (s.setFlag f v).h = s.h := rfl
@[simp] theorem State.setFlag_l (s : State) (f : Flag) (v : Bool) : (s.setFlag f v).l = s.l := rfl
@[simp] theorem State.setFlag_x (s : State) (f : Flag) (v : Bool) : (s.setFlag f v).x = s.x := rfl
@[simp] theorem State.setFlag_y (s : State) (f : Flag) (v : Bool) : (s.setFlag f v).y = s.y := rfl
@[simp] theorem State.setFlag_z (s : State) (f : Flag) (v : Bool) : (s.setFlag f v).z = s.z := rfl
@[simp] theorem State.setFlag_sp (s : State) (f : Flag) (v : Bool) : (s.setFlag f v).sp = s.sp := rfl
@[simp] theorem State.setFlag_pc (s : State) (f : Flag) (v : Bool) : (s.setFlag f v).pc = s.pc := rfl
@[simp] theorem State.setFlag_mem (s : State) (f : Flag) (v : Bool) : (s.setFlag f v).mem = s.mem := rfl
@[simp] theorem State.setFlag_run (s : State) (f : Flag) (v : Bool) : (s.setFlag f v).run = s.run := rfl
@[simp] theorem State.setFlag_inputs (s : State) (f : Flag) (v : Bool) : (s.setFlag f v).inputs = s.inputs := rfl
@[simp] theorem State.setFlag_draws (s : State) (f : Flag) (v : Bool) : (s.setFlag f v).draws = s.draws := rfl
@[simp] theorem State.setFlag_cfg (s : State) (f : Flag) (v : Bool) : (s.setFlag f v).cfg = s.cfg := rfl
@[simp] theorem State.setFlag_opcodeAt (s : State) (f : Flag) (v : Bool) : (s.setFlag f v).opcodeAt = s.opcodeAt := rfl
@[simp] theorem State.setFlag_operandAt (s : State) (f : Flag) (v : Bool) : (s.setFlag f v).operandAt = s.operandAt := rfl

@[simp] theorem State.setFlag_ccr (s : State) (f : Flag) (v : Bool) : (s.setFlag f v).ccr = ccrSet s.ccr f v := rfl

@[simp] theorem State.setNZ0_a {w : Nat} (s : State) (r : BitVec w) : (s.setNZ0 r).a = s.a := rfl
@[simp] theorem State.setNZ0_b {w : Nat} (s : State) (r : BitVec w) : (s.setNZ0 r).b = s.b := rfl
@[simp] theorem State.setNZ0_h {w : Nat} (s : State) (r : BitVec w) : (s.setNZ0 r).h = s.h := rfl
@[simp] theorem State.setNZ0_l {w : Nat} (s : State) (r : BitVec w) : (s.setNZ0 r).l = s.l := rfl
@[simp] theorem State.setNZ0_x {w : Nat} (s : State) (r : BitVec w) : (s.setNZ0 r).x = s.x := rfl
@[simp] theorem State.setNZ0_y {w : Nat} (s : State) (r : BitVec w) : (s.setNZ0 r).y = s.y := rfl
@[simp] theorem State.setNZ0_z {w : Nat} (s : State) (r : BitVec w) : (s.setNZ0 r).z = s.z := rfl
@[simp] theorem State.setNZ0_sp {w : Nat} (s : State) (r : BitVec w) : (s.setNZ0 r).sp = s.sp := rfl
@[simp] theorem State.setNZ0_pc {w : Nat} (s : State) (r : BitVec w) : (s.setNZ0 r).pc = s.pc := rfl
@[simp] theorem State.setNZ0_mem {w : Nat} (s : State) (r : BitVec w) : (s.setNZ0 r).mem = s.mem := rfl
@[simp] theorem State.setNZ0_run {w : Nat} (s : State) (r : BitVec w) : (s.setNZ0 r).run = s.run := rfl
@[simp] theorem State.setNZ0_inputs {w : Nat} (s : State) (r : BitVec w) : (s.setNZ0 r).inputs = s.inputs := rfl
@[simp] theorem State.setNZ0_draws {w : Nat} (s : State) (r : BitVec w) : (s.setNZ0 r).draws = s.draws := rfl
@[simp] theorem State.setNZ0_cfg {w : Nat} (s : State) (r : BitVec w) : (s.setNZ0 r).cfg = s.cfg := rfl
@[simp] theorem State.setNZ0_opcodeAt {w : Nat} (s : State) (r : BitVec w) : (s.setNZ0 r).opcodeAt = s.opcodeAt := rfl
@[simp] theorem State.setNZ0_operandAt {w : Nat} (s : State) (r : BitVec w) : (s.setNZ0 r).operandAt = s.operandAt := rfl

@[simp] theorem State.setAlu_a {w : Nat} (s : State) (r : Alu w) : (s.setAlu r).a = s.a := rfl
@[simp] theorem State.setAlu_b {w : Nat} (s : State) (r : Alu w) : (s.setAlu r).b = s.b := rfl
@[simp] theorem State.setAlu_h {w : Nat} (s : State) (r : Alu w) : (s.setAlu r).h = s.h := rfl
@[simp] theorem State.setAlu_l {w : Nat} (s : State) (r : Alu w) : (s.setAlu r).l = s.l := rfl
@[simp] theorem State.setAlu_x {w : Nat} (s : State) (r : Alu w) : (s.setAlu r).x = s.x := rfl
@[simp] theorem State.setAlu_y {w : Nat} (s : State) (r : Alu w) : (s.setAlu r).y = s.y := rfl
@[simp] theorem State.setAlu_z {w : Nat} (s : State) (r : Alu w) : (s.setAlu r).z = s.z := rfl
@[simp] theorem State.setAlu_sp {w : Nat} (s : State) (r : Alu w) : (s.setAlu r).sp = s.sp := rfl
@[simp] theorem State.setAlu_pc {w : Nat} (s : State) (r : Alu w) : (s.setAlu r).pc = s.pc := rfl
@[simp] theorem State.setAlu_mem {w : Nat} (s : State) (r : Alu w) : (s.setAlu r).mem = s.mem := rfl
@[simp] theorem State.setAlu_run {w : Nat} (s : State) (r : Alu w) : (s.setAlu r).run = s.run := rfl
@[simp] theorem State.setAlu_inputs {w : Nat} (s : State) (r : Alu w) : (s.setAlu r).inputs = s.inputs := rfl
@[simp] theorem State.setAlu_draws {w : Nat} (s : State) (r : Alu w) : (s.setAlu r).draws = s.draws := rfl
@[simp] theorem State.setAlu_cfg {w : Nat} (s : State) (r : Alu w) : (s.setAlu r).cfg = s.cfg := rfl
@[simp] theorem State.setAlu_opcodeAt {w : Nat} (s : State) (r : Alu w) : (s.setAlu r).opcodeAt = s.opcodeAt := rfl
@[simp] theorem State.setAlu_operandAt {w : Nat} (s : State) (r : Alu w) : (s.setAlu r).operandAt = s.operandAt := rfl

@[simp] theorem State.setNZV_a {w : Nat} (s : State) (r : BitVec w) (v : Bool) : (s.setNZV r v).a = s.a := rfl
@[simp] theorem State.setNZV_b {w : Nat} (s : State) (r : BitVec w) (v : Bool) : (s.setNZV r v).b = s.b := rfl
@[simp] theorem State.setNZV_h {w : Nat} (s : State) (r : BitVec w) (v : Bool) : (s.setNZV r v).h = s.h := rfl
@[simp] theorem State.setNZV_l {w : Nat} (s : State) (r : BitVec w) (v : Bool) : (s.setNZV r v).l = s.l := rfl
@[simp] theorem State.setNZV_x {w : Nat} (s : State) (r : BitVec w) (v : Bool) : (s.setNZV r v).x = s.x := rfl
@[simp] theorem State.setNZV_y {w : Nat} (s : State) (r : BitVec w) (v : Bool) : (s.setNZV r v).y = s.y := rfl
@[simp] theorem State.setNZV_z {w : Nat} (s : State) (r : BitVec w) (v : Bool) : (s.setNZV r v).z = s.z := rfl
@[simp] theorem State.setNZV_sp {w : Nat} (s : State) (r : BitVec w) (v : Bool) : (s.setNZV r v).sp = s.sp := rfl
@[simp] theorem State.setNZV_pc {w : Nat} (s : State) (r : BitVec w) (v : Bool) : (s.setNZV r v).pc = s.pc := rfl
@[simp] theorem State.setNZV_mem {w : Nat} (s : State) (r : BitVec w) (v : Bool) : (s.setNZV r v).mem = s.mem := rfl
@[simp] theorem State.setNZV_run {w : Nat} (s : State) (r : BitVec w) (v : Bool) : (s.setNZV r v).run = s.run := rfl
@[simp] theorem State.setNZV_inputs {w : Nat} (s : State) (r : BitVec w) (v : Bool) : (s.setNZV r v).inputs = s.inputs := rfl
@[simp] theorem State.setNZV_draws {w : Nat} (s : State) (r : BitVec w) (v : Bool) : (s.setNZV r v).draws = s.draws := rfl
@[simp] theorem State.setNZV_cfg {w : Nat} (s : State) (r : BitVec w) (v : Bool) : (s.setNZV r v).cfg = s.cfg := rfl
@[simp] theorem State.setNZV_opcodeAt {w : Nat} (s : State) (r : BitVec w) (v : Bool) : (s.setNZV r v).opcodeAt = s.opcodeAt := rfl
@[simp] theorem State.setNZV_operandAt {w : Nat} (s : State) (r : BitVec w) (v : Bool) : (s.setNZV r v).operandAt = s.operandAt := rfl

@[simp] theorem State.setNZVC_a {w : Nat} (s : State) (r : BitVec w) (v c : Bool) : (s.setNZVC r v c).a = s.a := rfl
@[simp] theorem State.setNZVC_b {w : Nat} (s : State) (r : BitVec w) (v c : Bool) : (s.setNZVC r v c).b = s.b := rfl
@[simp] theorem State.setNZVC_h {w : Nat} (s : State) (r : BitVec w) (v c : Bool) : (s.setNZVC r v c).h = s.h := rfl
@[simp] theorem State.setNZVC_l {w : Nat} (s : State) (r : BitVec w) (v c : Bool) : (s.setNZVC r v c).l = s.l := rfl
@[simp] theorem State.setNZVC_x {w : Nat} (s : State) (r : BitVec w) (v c : Bool) : (s.setNZVC r v c).x = s.x := rfl
@[simp] theorem State.setNZVC_y {w : Nat} (s : State) (r : BitVec w) (v c : Bool) : (s.setNZVC r v c).y = s.y := rfl
@[simp] theorem State.setNZVC_z {w : Nat} (s : State) (r : BitVec w) (v c : Bool) : (s.setNZVC r v c).z = s.z := rfl
@[simp] theorem State.setNZVC_sp {w : Nat} (s : State) (r : BitVec w) (v c : Bool) : (s.setNZVC r v c).sp = s.sp := rfl
@[simp] theorem State.setNZVC_pc {w : Nat} (s : State) (r : BitVec w) (v c : Bool) : (s.setNZVC r v c).pc = s.pc := rfl
@[simp] theorem State.setNZVC_mem {w : Nat} (s : State) (r : BitVec w) (v c : Bool) : (s.setNZVC r v c).mem = s.mem := rfl
@[simp] theorem State.setNZVC_run {w : Nat} (s : State) (r : BitVec w) (v c : Bool) : (s.setNZVC r v c).run = s.run := rfl
@[simp] theorem State.setNZVC_inputs {w : Nat} (s : State) (r : BitVec w) (v c : Bool) : (s.setNZVC r v c).inputs = s.inputs := rfl
@[simp] theorem State.setNZVC_draws {w : Nat} (s : State) (r : BitVec w) (v c : Bool) : (s.setNZVC r v c).draws = s.draws := rfl
@[simp] theorem State.setNZVC_cfg {w : Nat} (s : State) (r : BitVec w) (v c : Bool) : (s.setNZVC r v c).cfg = s.cfg := rfl
@[simp] theorem State.setNZVC_opcodeAt {w : Nat} (s : State) (r : BitVec w) (v c : Bool) : (s.setNZVC r v c).opcodeAt = s.opcodeAt := rfl
@[simp] theorem State.setNZVC_operandAt {w : Nat} (s : State) (r : BitVec w) (v c : Bool) : (s.setNZVC r v c).operandAt = s.operandAt := rfl

/-! ## The half-carry of `H_WRITERS` -/

@[simp] theorem State.setHalf_a (s : State) (w : Config.HWriter) (v : Bool) : (s.setHalf w v).a = s.a := by
  unfold State.setHalf
  split <;> rfl
@[simp] theorem State.setHalf_b (s : State) (w : Config.HWriter) (v : Bool) : (s.setHalf w v).b = s.b := by
  unfold State.setHalf
  split <;> rfl
@[simp] theorem State.setHalf_h (s : State) (w : Config.HWriter) (v : Bool) : (s.setHalf w v).h = s.h := by
  unfold State.setHalf
  split <;> rfl
@[simp] theorem State.setHalf_l (s : State) (w : Config.HWriter) (v : Bool) : (s.setHalf w v).l = s.l := by
  unfold State.setHalf
  split <;> rfl
@[simp] theorem State.setHalf_x (s : State) (w : Config.HWriter) (v : Bool) : (s.setHalf w v).x = s.x := by
  unfold State.setHalf
  split <;> rfl
@[simp] theorem State.setHalf_y (s : State) (w : Config.HWriter) (v : Bool) : (s.setHalf w v).y = s.y := by
  unfold State.setHalf
  split <;> rfl
@[simp] theorem State.setHalf_z (s : State) (w : Config.HWriter) (v : Bool) : (s.setHalf w v).z = s.z := by
  unfold State.setHalf
  split <;> rfl
@[simp] theorem State.setHalf_sp (s : State) (w : Config.HWriter) (v : Bool) : (s.setHalf w v).sp = s.sp := by
  unfold State.setHalf
  split <;> rfl
@[simp] theorem State.setHalf_pc (s : State) (w : Config.HWriter) (v : Bool) : (s.setHalf w v).pc = s.pc := by
  unfold State.setHalf
  split <;> rfl
@[simp] theorem State.setHalf_mem (s : State) (w : Config.HWriter) (v : Bool) : (s.setHalf w v).mem = s.mem := by
  unfold State.setHalf
  split <;> rfl
@[simp] theorem State.setHalf_run (s : State) (w : Config.HWriter) (v : Bool) : (s.setHalf w v).run = s.run := by
  unfold State.setHalf
  split <;> rfl
@[simp] theorem State.setHalf_inputs (s : State) (w : Config.HWriter) (v : Bool) : (s.setHalf w v).inputs = s.inputs := by
  unfold State.setHalf
  split <;> rfl
@[simp] theorem State.setHalf_draws (s : State) (w : Config.HWriter) (v : Bool) : (s.setHalf w v).draws = s.draws := by
  unfold State.setHalf
  split <;> rfl
@[simp] theorem State.setHalf_cfg (s : State) (w : Config.HWriter) (v : Bool) : (s.setHalf w v).cfg = s.cfg := by
  unfold State.setHalf
  split <;> rfl
@[simp] theorem State.setHalf_opcodeAt (s : State) (w : Config.HWriter) (v : Bool) : (s.setHalf w v).opcodeAt = s.opcodeAt := by
  unfold State.setHalf
  split <;> rfl
@[simp] theorem State.setHalf_operandAt (s : State) (w : Config.HWriter) (v : Bool) : (s.setHalf w v).operandAt = s.operandAt := by
  unfold State.setHalf
  split <;> rfl
@[simp] theorem State.setHalf_acc (s : State) (w : Config.HWriter) (v : Bool) (q : Acc) :
    (s.setHalf w v).acc q = s.acc q := by
  unfold State.setHalf
  split
  · cases q <;> rfl
  · rfl
@[simp] theorem State.setHalf_dbl (s : State) (w : Config.HWriter) (v : Bool) (q : Dbl) :
    (s.setHalf w v).dbl q = s.dbl q := by
  unfold State.setHalf
  split
  · cases q <;> rfl
  · rfl
@[simp] theorem State.setHalf_ireg (s : State) (w : Config.HWriter) (v : Bool) (q : IReg) :
    (s.setHalf w v).ireg q = s.ireg q := by
  unfold State.setHalf
  split
  · cases q <;> rfl
  · rfl
@[simp] theorem State.setHalf_read8 (s : State) (w : Config.HWriter) (v : Bool) (q : Word) :
    (s.setHalf w v).read8 q = s.read8 q := by
  unfold State.setHalf
  split
  · rfl
  · rfl

@[simp] theorem State.freeHalf_a (s : State) (w : Config.HWriter) : (s.freeHalf w).a = s.a := s.setHalf_a w _
@[simp] theorem State.freeHalf_b (s : State) (w : Config.HWriter) : (s.freeHalf w).b = s.b := s.setHalf_b w _
@[simp] theorem State.freeHalf_h (s : State) (w : Config.HWriter) : (s.freeHalf w).h = s.h := s.setHalf_h w _
@[simp] theorem State.freeHalf_l (s : State) (w : Config.HWriter) : (s.freeHalf w).l = s.l := s.setHalf_l w _
@[simp] theorem State.freeHalf_x (s : State) (w : Config.HWriter) : (s.freeHalf w).x = s.x := s.setHalf_x w _
@[simp] theorem State.freeHalf_y (s : State) (w : Config.HWriter) : (s.freeHalf w).y = s.y := s.setHalf_y w _
@[simp] theorem State.freeHalf_z (s : State) (w : Config.HWriter) : (s.freeHalf w).z = s.z := s.setHalf_z w _
@[simp] theorem State.freeHalf_sp (s : State) (w : Config.HWriter) : (s.freeHalf w).sp = s.sp := s.setHalf_sp w _
@[simp] theorem State.freeHalf_pc (s : State) (w : Config.HWriter) : (s.freeHalf w).pc = s.pc := s.setHalf_pc w _
@[simp] theorem State.freeHalf_mem (s : State) (w : Config.HWriter) : (s.freeHalf w).mem = s.mem := s.setHalf_mem w _
@[simp] theorem State.freeHalf_run (s : State) (w : Config.HWriter) : (s.freeHalf w).run = s.run := s.setHalf_run w _
@[simp] theorem State.freeHalf_inputs (s : State) (w : Config.HWriter) : (s.freeHalf w).inputs = s.inputs := s.setHalf_inputs w _
@[simp] theorem State.freeHalf_draws (s : State) (w : Config.HWriter) : (s.freeHalf w).draws = s.draws := s.setHalf_draws w _
@[simp] theorem State.freeHalf_cfg (s : State) (w : Config.HWriter) : (s.freeHalf w).cfg = s.cfg := s.setHalf_cfg w _
@[simp] theorem State.freeHalf_opcodeAt (s : State) (w : Config.HWriter) : (s.freeHalf w).opcodeAt = s.opcodeAt := s.setHalf_opcodeAt w _
@[simp] theorem State.freeHalf_operandAt (s : State) (w : Config.HWriter) : (s.freeHalf w).operandAt = s.operandAt := s.setHalf_operandAt w _
@[simp] theorem State.freeHalf_acc (s : State) (w : Config.HWriter) (q : Acc) : (s.freeHalf w).acc q = s.acc q :=
  s.setHalf_acc w _ q
@[simp] theorem State.freeHalf_dbl (s : State) (w : Config.HWriter) (q : Dbl) : (s.freeHalf w).dbl q = s.dbl q :=
  s.setHalf_dbl w _ q
@[simp] theorem State.freeHalf_ireg (s : State) (w : Config.HWriter) (q : IReg) : (s.freeHalf w).ireg q = s.ireg q :=
  s.setHalf_ireg w _ q
@[simp] theorem State.freeHalf_read8 (s : State) (w : Config.HWriter) (q : Word) : (s.freeHalf w).read8 q = s.read8 q :=
  s.setHalf_read8 w _ q

/-! ## Interrupt entry, the boundary, the fetch -/

@[simp] theorem State.pushFrame_a (s : State) (ret : Word) : (s.pushFrame ret).a = s.a := rfl
@[simp] theorem State.pushFrame_b (s : State) (ret : Word) : (s.pushFrame ret).b = s.b := rfl
@[simp] theorem State.pushFrame_h (s : State) (ret : Word) : (s.pushFrame ret).h = s.h := rfl
@[simp] theorem State.pushFrame_l (s : State) (ret : Word) : (s.pushFrame ret).l = s.l := rfl
@[simp] theorem State.pushFrame_x (s : State) (ret : Word) : (s.pushFrame ret).x = s.x := rfl
@[simp] theorem State.pushFrame_y (s : State) (ret : Word) : (s.pushFrame ret).y = s.y := rfl
@[simp] theorem State.pushFrame_z (s : State) (ret : Word) : (s.pushFrame ret).z = s.z := rfl
@[simp] theorem State.pushFrame_pc (s : State) (ret : Word) : (s.pushFrame ret).pc = s.pc := rfl
@[simp] theorem State.pushFrame_ccr (s : State) (ret : Word) : (s.pushFrame ret).ccr = s.ccr := rfl
@[simp] theorem State.pushFrame_run (s : State) (ret : Word) : (s.pushFrame ret).run = s.run := rfl
@[simp] theorem State.pushFrame_inputs (s : State) (ret : Word) : (s.pushFrame ret).inputs = s.inputs := rfl
@[simp] theorem State.pushFrame_draws (s : State) (ret : Word) : (s.pushFrame ret).draws = s.draws := rfl
@[simp] theorem State.pushFrame_cfg (s : State) (ret : Word) : (s.pushFrame ret).cfg = s.cfg := rfl
@[simp] theorem State.pushFrame_opcodeAt (s : State) (ret : Word) : (s.pushFrame ret).opcodeAt = s.opcodeAt := rfl
@[simp] theorem State.pushFrame_operandAt (s : State) (ret : Word) : (s.pushFrame ret).operandAt = s.operandAt := rfl

@[simp] theorem State.pushFrame_sp (s : State) (ret : Word) : (s.pushFrame ret).sp = s.sp - 13 := rfl

@[simp] theorem State.enterAt_a (s : State) (vec : Word) : (s.enterAt vec).a = s.a := rfl
@[simp] theorem State.enterAt_b (s : State) (vec : Word) : (s.enterAt vec).b = s.b := rfl
@[simp] theorem State.enterAt_h (s : State) (vec : Word) : (s.enterAt vec).h = s.h := rfl
@[simp] theorem State.enterAt_l (s : State) (vec : Word) : (s.enterAt vec).l = s.l := rfl
@[simp] theorem State.enterAt_x (s : State) (vec : Word) : (s.enterAt vec).x = s.x := rfl
@[simp] theorem State.enterAt_y (s : State) (vec : Word) : (s.enterAt vec).y = s.y := rfl
@[simp] theorem State.enterAt_z (s : State) (vec : Word) : (s.enterAt vec).z = s.z := rfl
@[simp] theorem State.enterAt_sp (s : State) (vec : Word) : (s.enterAt vec).sp = s.sp := rfl
@[simp] theorem State.enterAt_mem (s : State) (vec : Word) : (s.enterAt vec).mem = s.mem := rfl
@[simp] theorem State.enterAt_inputs (s : State) (vec : Word) : (s.enterAt vec).inputs = s.inputs := rfl
@[simp] theorem State.enterAt_draws (s : State) (vec : Word) : (s.enterAt vec).draws = s.draws := rfl
@[simp] theorem State.enterAt_cfg (s : State) (vec : Word) : (s.enterAt vec).cfg = s.cfg := rfl
@[simp] theorem State.enterAt_opcodeAt (s : State) (vec : Word) : (s.enterAt vec).opcodeAt = s.opcodeAt := rfl
@[simp] theorem State.enterAt_operandAt (s : State) (vec : Word) : (s.enterAt vec).operandAt = s.operandAt := rfl

@[simp] theorem State.enterAt_ccr (s : State) (vec : Word) : (s.enterAt vec).ccr = ccrSet s.ccr .I true := rfl
@[simp] theorem State.enterAt_pc (s : State) (vec : Word) : (s.enterAt vec).pc = s.read16 vec := rfl
@[simp] theorem State.enterAt_run (s : State) (vec : Word) : (s.enterAt vec).run = .running := rfl


@[simp] theorem State.sampled_a (s : State) : (s.sampled).a = s.a := rfl
@[simp] theorem State.sampled_b (s : State) : (s.sampled).b = s.b := rfl
@[simp] theorem State.sampled_h (s : State) : (s.sampled).h = s.h := rfl
@[simp] theorem State.sampled_l (s : State) : (s.sampled).l = s.l := rfl
@[simp] theorem State.sampled_x (s : State) : (s.sampled).x = s.x := rfl
@[simp] theorem State.sampled_y (s : State) : (s.sampled).y = s.y := rfl
@[simp] theorem State.sampled_z (s : State) : (s.sampled).z = s.z := rfl
@[simp] theorem State.sampled_sp (s : State) : (s.sampled).sp = s.sp := rfl
@[simp] theorem State.sampled_pc (s : State) : (s.sampled).pc = s.pc := rfl
@[simp] theorem State.sampled_ccr (s : State) : (s.sampled).ccr = s.ccr := rfl
@[simp] theorem State.sampled_mem (s : State) : (s.sampled).mem = s.mem := rfl
@[simp] theorem State.sampled_run (s : State) : (s.sampled).run = s.run := rfl
@[simp] theorem State.sampled_draws (s : State) : s.sampled.draws = s.draws + 1 := rfl
@[simp] theorem State.sampled_cfg (s : State) : (s.sampled).cfg = s.cfg := rfl
@[simp] theorem State.sampled_opcodeAt (s : State) : (s.sampled).opcodeAt = s.opcodeAt := rfl
@[simp] theorem State.sampled_operandAt (s : State) : (s.sampled).operandAt = s.operandAt := rfl

@[simp] theorem State.sampled_inputs (s : State) : s.sampled.inputs = s.inputs.tail := rfl

@[simp] theorem State.advanced_a (s : State) : (s.advanced).a = s.a := rfl
@[simp] theorem State.advanced_b (s : State) : (s.advanced).b = s.b := rfl
@[simp] theorem State.advanced_h (s : State) : (s.advanced).h = s.h := rfl
@[simp] theorem State.advanced_l (s : State) : (s.advanced).l = s.l := rfl
@[simp] theorem State.advanced_x (s : State) : (s.advanced).x = s.x := rfl
@[simp] theorem State.advanced_y (s : State) : (s.advanced).y = s.y := rfl
@[simp] theorem State.advanced_z (s : State) : (s.advanced).z = s.z := rfl
@[simp] theorem State.advanced_sp (s : State) : (s.advanced).sp = s.sp := rfl
@[simp] theorem State.advanced_ccr (s : State) : (s.advanced).ccr = s.ccr := rfl
@[simp] theorem State.advanced_mem (s : State) : (s.advanced).mem = s.mem := rfl
@[simp] theorem State.advanced_run (s : State) : (s.advanced).run = s.run := rfl
@[simp] theorem State.advanced_draws (s : State) : s.advanced.draws = s.draws + 1 := rfl
@[simp] theorem State.advanced_cfg (s : State) : (s.advanced).cfg = s.cfg := rfl

@[simp] theorem State.advanced_inputs (s : State) : s.advanced.inputs = s.inputs.tail := rfl
@[simp] theorem State.advanced_opcodeAt (s : State) : s.advanced.opcodeAt = s.pc := rfl
@[simp] theorem State.advanced_operandAt (s : State) :
    s.advanced.operandAt = s.pc + BitVec.ofNat 16 s.fetch.2 - BitVec.ofNat 16 s.fetch.1.operandLen := rfl
@[simp] theorem State.advanced_pc (s : State) : s.advanced.pc = s.pc + BitVec.ofNat 16 s.fetch.2 := rfl

/-! ## The views over the updates -/

@[simp] theorem State.write8_acc (s : State) (p : Word) (v : Byte) (q : Acc) : (s.write8 p v).acc q = s.acc q := by cases q <;> rfl
@[simp] theorem State.write8_dbl (s : State) (p : Word) (v : Byte) (q : Dbl) : (s.write8 p v).dbl q = s.dbl q := by cases q <;> rfl
@[simp] theorem State.write8_ireg (s : State) (p : Word) (v : Byte) (q : IReg) : (s.write8 p v).ireg q = s.ireg q := by cases q <;> rfl
@[simp] theorem State.write16_acc (s : State) (p v : Word) (q : Acc) : (s.write16 p v).acc q = s.acc q := by cases q <;> rfl
@[simp] theorem State.write16_dbl (s : State) (p v : Word) (q : Dbl) : (s.write16 p v).dbl q = s.dbl q := by cases q <;> rfl
@[simp] theorem State.write16_ireg (s : State) (p v : Word) (q : IReg) : (s.write16 p v).ireg q = s.ireg q := by cases q <;> rfl
@[simp] theorem State.push8_acc (s : State) (v : Byte) (q : Acc) : (s.push8 v).acc q = s.acc q := by cases q <;> rfl
@[simp] theorem State.push8_dbl (s : State) (v : Byte) (q : Dbl) : (s.push8 v).dbl q = s.dbl q := by cases q <;> rfl
@[simp] theorem State.push8_ireg (s : State) (v : Byte) (q : IReg) : (s.push8 v).ireg q = s.ireg q := by cases q <;> rfl
@[simp] theorem State.push16_acc (s : State) (v : Word) (q : Acc) : (s.push16 v).acc q = s.acc q := by cases q <;> rfl
@[simp] theorem State.push16_dbl (s : State) (v : Word) (q : Dbl) : (s.push16 v).dbl q = s.dbl q := by cases q <;> rfl
@[simp] theorem State.push16_ireg (s : State) (v : Word) (q : IReg) : (s.push16 v).ireg q = s.ireg q := by cases q <;> rfl
@[simp] theorem State.dropped_acc (s : State) (n : Word) (q : Acc) : (s.dropped n).acc q = s.acc q := by cases q <;> rfl
@[simp] theorem State.dropped_dbl (s : State) (n : Word) (q : Dbl) : (s.dropped n).dbl q = s.dbl q := by cases q <;> rfl
@[simp] theorem State.dropped_ireg (s : State) (n : Word) (q : IReg) : (s.dropped n).ireg q = s.ireg q := by cases q <;> rfl
@[simp] theorem State.setFlag_acc (s : State) (f : Flag) (v : Bool) (q : Acc) : (s.setFlag f v).acc q = s.acc q := by cases q <;> rfl
@[simp] theorem State.setFlag_dbl (s : State) (f : Flag) (v : Bool) (q : Dbl) : (s.setFlag f v).dbl q = s.dbl q := by cases q <;> rfl
@[simp] theorem State.setFlag_ireg (s : State) (f : Flag) (v : Bool) (q : IReg) : (s.setFlag f v).ireg q = s.ireg q := by cases q <;> rfl
@[simp] theorem State.setNZ0_acc (s : State) {w : Nat} (r : BitVec w) (q : Acc) : (s.setNZ0 r).acc q = s.acc q := by cases q <;> rfl
@[simp] theorem State.setNZ0_dbl (s : State) {w : Nat} (r : BitVec w) (q : Dbl) : (s.setNZ0 r).dbl q = s.dbl q := by cases q <;> rfl
@[simp] theorem State.setNZ0_ireg (s : State) {w : Nat} (r : BitVec w) (q : IReg) : (s.setNZ0 r).ireg q = s.ireg q := by cases q <;> rfl
@[simp] theorem State.setNZV_acc (s : State) {w : Nat} (r : BitVec w) (v : Bool) (q : Acc) : (s.setNZV r v).acc q = s.acc q := by cases q <;> rfl
@[simp] theorem State.setNZV_dbl (s : State) {w : Nat} (r : BitVec w) (v : Bool) (q : Dbl) : (s.setNZV r v).dbl q = s.dbl q := by cases q <;> rfl
@[simp] theorem State.setNZV_ireg (s : State) {w : Nat} (r : BitVec w) (v : Bool) (q : IReg) : (s.setNZV r v).ireg q = s.ireg q := by cases q <;> rfl
@[simp] theorem State.setNZVC_acc (s : State) {w : Nat} (r : BitVec w) (v c : Bool) (q : Acc) : (s.setNZVC r v c).acc q = s.acc q := by cases q <;> rfl
@[simp] theorem State.setNZVC_dbl (s : State) {w : Nat} (r : BitVec w) (v c : Bool) (q : Dbl) : (s.setNZVC r v c).dbl q = s.dbl q := by cases q <;> rfl
@[simp] theorem State.setNZVC_ireg (s : State) {w : Nat} (r : BitVec w) (v c : Bool) (q : IReg) : (s.setNZVC r v c).ireg q = s.ireg q := by cases q <;> rfl
@[simp] theorem State.setAlu_acc (s : State) {w : Nat} (r : Alu w) (q : Acc) : (s.setAlu r).acc q = s.acc q := by cases q <;> rfl
@[simp] theorem State.setAlu_dbl (s : State) {w : Nat} (r : Alu w) (q : Dbl) : (s.setAlu r).dbl q = s.dbl q := by cases q <;> rfl
@[simp] theorem State.setAlu_ireg (s : State) {w : Nat} (r : Alu w) (q : IReg) : (s.setAlu r).ireg q = s.ireg q := by cases q <;> rfl
@[simp] theorem State.pushFrame_acc (s : State) (ret : Word) (q : Acc) : (s.pushFrame ret).acc q = s.acc q := by cases q <;> rfl
@[simp] theorem State.pushFrame_dbl (s : State) (ret : Word) (q : Dbl) : (s.pushFrame ret).dbl q = s.dbl q := by cases q <;> rfl
@[simp] theorem State.pushFrame_ireg (s : State) (ret : Word) (q : IReg) : (s.pushFrame ret).ireg q = s.ireg q := by cases q <;> rfl
@[simp] theorem State.enterAt_acc (s : State) (vec : Word) (q : Acc) : (s.enterAt vec).acc q = s.acc q := by cases q <;> rfl
@[simp] theorem State.enterAt_dbl (s : State) (vec : Word) (q : Dbl) : (s.enterAt vec).dbl q = s.dbl q := by cases q <;> rfl
@[simp] theorem State.enterAt_ireg (s : State) (vec : Word) (q : IReg) : (s.enterAt vec).ireg q = s.ireg q := by cases q <;> rfl

@[simp] theorem State.write8_flag (s : State) (p : Word) (v : Byte) (f : Flag) : (s.write8 p v).flag f = s.flag f := rfl
@[simp] theorem State.write16_flag (s : State) (p v : Word) (f : Flag) : (s.write16 p v).flag f = s.flag f := rfl
@[simp] theorem State.push8_flag (s : State) (v : Byte) (f : Flag) : (s.push8 v).flag f = s.flag f := rfl
@[simp] theorem State.push16_flag (s : State) (v : Word) (f : Flag) : (s.push16 v).flag f = s.flag f := rfl
@[simp] theorem State.dropped_flag (s : State) (n : Word) (f : Flag) : (s.dropped n).flag f = s.flag f := rfl
@[simp] theorem State.pushFrame_flag (s : State) (ret : Word) (f : Flag) : (s.pushFrame ret).flag f = s.flag f := rfl
@[simp] theorem State.setAcc_flag (s : State) (r : Acc) (v : Byte) (f : Flag) : (s.setAcc r v).flag f = s.flag f := by cases r <;> rfl
@[simp] theorem State.setDbl_flag (s : State) (d : Dbl) (v : Word) (f : Flag) : (s.setDbl d v).flag f = s.flag f := by cases d <;> rfl
@[simp] theorem State.setIreg_flag (s : State) (r : IReg) (v : Word) (f : Flag) : (s.setIreg r v).flag f = s.flag f := by cases r <;> rfl

@[simp] theorem State.dropped_read8 (s : State) (n : Word) (q : Word) : (s.dropped n).read8 q = s.read8 q := rfl
@[simp] theorem State.dropped_read16 (s : State) (n : Word) (q : Word) : (s.dropped n).read16 q = s.read16 q := rfl
@[simp] theorem State.setFlag_read8 (s : State) (f : Flag) (v : Bool) (q : Word) : (s.setFlag f v).read8 q = s.read8 q := rfl
@[simp] theorem State.setFlag_read16 (s : State) (f : Flag) (v : Bool) (q : Word) : (s.setFlag f v).read16 q = s.read16 q := rfl
@[simp] theorem State.setNZ0_read8 (s : State) {w : Nat} (r : BitVec w) (q : Word) : (s.setNZ0 r).read8 q = s.read8 q := rfl
@[simp] theorem State.setNZ0_read16 (s : State) {w : Nat} (r : BitVec w) (q : Word) : (s.setNZ0 r).read16 q = s.read16 q := rfl
@[simp] theorem State.setNZV_read8 (s : State) {w : Nat} (r : BitVec w) (v : Bool) (q : Word) : (s.setNZV r v).read8 q = s.read8 q := rfl
@[simp] theorem State.setNZV_read16 (s : State) {w : Nat} (r : BitVec w) (v : Bool) (q : Word) : (s.setNZV r v).read16 q = s.read16 q := rfl
@[simp] theorem State.setNZVC_read8 (s : State) {w : Nat} (r : BitVec w) (v c : Bool) (q : Word) : (s.setNZVC r v c).read8 q = s.read8 q := rfl
@[simp] theorem State.setNZVC_read16 (s : State) {w : Nat} (r : BitVec w) (v c : Bool) (q : Word) : (s.setNZVC r v c).read16 q = s.read16 q := rfl
@[simp] theorem State.setAlu_read8 (s : State) {w : Nat} (r : Alu w) (q : Word) : (s.setAlu r).read8 q = s.read8 q := rfl
@[simp] theorem State.setAlu_read16 (s : State) {w : Nat} (r : Alu w) (q : Word) : (s.setAlu r).read16 q = s.read16 q := rfl
@[simp] theorem State.enterAt_read8 (s : State) (vec : Word) (q : Word) : (s.enterAt vec).read8 q = s.read8 q := rfl
@[simp] theorem State.enterAt_read16 (s : State) (vec : Word) (q : Word) : (s.enterAt vec).read16 q = s.read16 q := rfl
@[simp] theorem State.setAcc_read8 (s : State) (r : Acc) (v : Byte) (q : Word) : (s.setAcc r v).read8 q = s.read8 q := by cases r <;> rfl
@[simp] theorem State.setAcc_read16 (s : State) (r : Acc) (v : Byte) (q : Word) : (s.setAcc r v).read16 q = s.read16 q := by cases r <;> rfl
@[simp] theorem State.setDbl_read8 (s : State) (d : Dbl) (v : Word) (q : Word) : (s.setDbl d v).read8 q = s.read8 q := by cases d <;> rfl
@[simp] theorem State.setDbl_read16 (s : State) (d : Dbl) (v : Word) (q : Word) : (s.setDbl d v).read16 q = s.read16 q := by cases d <;> rfl
@[simp] theorem State.setIreg_read8 (s : State) (r : IReg) (v : Word) (q : Word) : (s.setIreg r v).read8 q = s.read8 q := by cases r <;> rfl
@[simp] theorem State.setIreg_read16 (s : State) (r : IReg) (v : Word) (q : Word) : (s.setIreg r v).read16 q = s.read16 q := by cases r <;> rfl

@[simp] theorem State.setAcc_ireg (s : State) (r : Acc) (v : Byte) (q : IReg) : (s.setAcc r v).ireg q = s.ireg q := by
  cases r <;> cases q <;> rfl

@[simp] theorem State.setDbl_ireg (s : State) (d : Dbl) (v : Word) (q : IReg) : (s.setDbl d v).ireg q = s.ireg q := by
  cases d <;> cases q <;> rfl

@[simp] theorem State.setIreg_acc (s : State) (r : IReg) (v : Word) (q : Acc) : (s.setIreg r v).acc q = s.acc q := by
  cases r <;> cases q <;> rfl

@[simp] theorem State.setIreg_dbl (s : State) (r : IReg) (v : Word) (q : Dbl) : (s.setIreg r v).dbl q = s.dbl q := by
  cases r <;> cases q <;> rfl

/-- Writing an accumulator changes it and no other (R10). -/
@[simp] theorem State.setAcc_acc (s : State) (r : Acc) (v : Byte) (q : Acc) :
    (s.setAcc r v).acc q = if q = r then v else s.acc q := by
  cases r <;> cases q <;> rfl

/-- Writing an index register changes it and no other (R12). -/
@[simp] theorem State.setIreg_ireg (s : State) (r : IReg) (v : Word) (q : IReg) :
    (s.setIreg r v).ireg q = if q = r then v else s.ireg q := by
  cases r <;> cases q <;> rfl

/-- The double accumulator an accumulator is half of (R11). -/
theorem State.setDbl_dbl (s : State) (d : Dbl) (v : Word) (q : Dbl) :
    (s.setDbl d v).dbl q = if q = d then v else s.dbl q := by
  cases d <;> cases q <;> simp [State.setDbl, State.dbl]

end Sys2Proof.Machine
end

