-- ==== Sys2Proof/Laws/Flags.lean ====
section
/-! SUPPORT. Reading a condition code after it, or another, was written; the flags each way of writing them leaves. -/

namespace Sys2Proof.Machine

/-- Writing one bit of CCR changes it and no other (R7, R16). -/
theorem ccrBit_ccrSet (c : Byte) (f g : Flag) (v : Bool) :
    ccrBit (ccrSet c f v) g = if g = f then v else ccrBit c g := by
  cases v <;> cases f <;> cases g <;> simp [ccrBit, ccrSet, Flag.pos]

@[simp] theorem State.setFlag_flag (s : State) (f g : Flag) (v : Bool) :
    (s.setFlag f v).flag g = if g = f then v else s.flag g := ccrBit_ccrSet _ _ _ _

/-- Two CCR values with the same eight bits are equal (R16). -/
theorem ccr_ext {c d : Byte} (h : ∀ f, ccrBit c f = ccrBit d f) : c = d := by
  apply BitVec.eq_of_getLsbD_eq
  intro i hi
  have hS := h .S
  have hX := h .X
  have hH := h .H
  have hI := h .I
  have hN := h .N
  have hZ := h .Z
  have hV := h .V
  have hC := h .C
  simp only [ccrBit, Flag.pos] at hS hX hH hI hN hZ hV hC
  match i, hi with
  | 0, _ => exact hC
  | 1, _ => exact hV
  | 2, _ => exact hZ
  | 3, _ => exact hN
  | 4, _ => exact hI
  | 5, _ => exact hH
  | 6, _ => exact hX
  | 7, _ => exact hS

theorem ccrNZ_bit {w : Nat} (c : Byte) (r : BitVec w) (g : Flag) :
    ccrBit (ccrNZ c r) g = if g = .N then r.msb else if g = .Z then decide (r = 0) else ccrBit c g := by
  cases g <;> simp [ccrNZ, ccrBit_ccrSet]

/-- The columns `N Z V -` (R119). -/
theorem State.setNZV_flag {w : Nat} (s : State) (r : BitVec w) (v : Bool) (g : Flag) :
    (s.setNZV r v).flag g =
      if g = .N then r.msb else if g = .Z then decide (r = 0) else if g = .V then v else s.flag g := by
  cases g <;> simp [State.setNZV, State.flag, ccrNZV, ccrNZ_bit, ccrBit_ccrSet]

/-- The columns `N Z 0 -` (R117). -/
theorem State.setNZ0_flag {w : Nat} (s : State) (r : BitVec w) (g : Flag) :
    (s.setNZ0 r).flag g =
      if g = .N then r.msb else if g = .Z then decide (r = 0) else if g = .V then false else s.flag g :=
  State.setNZV_flag s r false g

/-- The columns `N Z V C` (R119). -/
theorem State.setNZVC_flag {w : Nat} (s : State) (r : BitVec w) (v c : Bool) (g : Flag) :
    (s.setNZVC r v c).flag g =
      if g = .N then r.msb else if g = .Z then decide (r = 0) else if g = .V then v else if g = .C then c
      else s.flag g := by
  cases g <;> simp [State.setNZVC, State.flag, ccrNZVC, ccrNZV, ccrNZ_bit, ccrBit_ccrSet]

/-- The columns `N Z V C` from a computed result (R119). -/
theorem State.setAlu_flag {w : Nat} (s : State) (r : Alu w) (g : Flag) :
    (s.setAlu r).flag g =
      if g = .N then r.value.msb else if g = .Z then decide (r.value = 0) else if g = .V then r.overflow
      else if g = .C then r.carry else s.flag g :=
  State.setNZVC_flag s r.value r.overflow r.carry g

/-- Entering a handler sets I and leaves the other flags (R304). -/
theorem State.enterAt_flag (s : State) (vec : Word) (g : Flag) :
    (s.enterAt vec).flag g = if g = .I then true else s.flag g := ccrBit_ccrSet _ _ _ _

end Sys2Proof.Machine
end

