-- ==== Sys2Proof/Laws/Memory.lean ====
section
/-! SUPPORT. The laws of memory: what is read after a write, and that every write keeps the canonical form. -/

namespace Sys2Proof.Machine

/-- A canonical memory has nothing listed below its least address. -/
theorem Memory.lookup_below {m : Memory} {lo k : Nat} (h : Memory.wfFrom lo m = true) (hk : k < lo) :
    m.lookup k = unlistedByte := by
  induction m generalizing lo with
  | nil => rfl
  | cons c m ih =>
    obtain ⟨j, v⟩ := c
    simp only [Memory.wfFrom, Bool.and_eq_true, decide_eq_true_eq] at h
    obtain ⟨⟨⟨h1, _⟩, _⟩, h4⟩ := h
    have hj : j ≠ k := by omega
    simp only [Memory.lookup, if_neg hj]
    exact ih h4 (by omega)

/-- The canonical form from one bound is the canonical form from any lower one. -/
theorem Memory.wfFrom_mono {m : Memory} {lo lo' : Nat} (h : Memory.wfFrom lo m = true) (hl : lo' ≤ lo) :
    Memory.wfFrom lo' m = true := by
  cases m with
  | nil => rfl
  | cons c m =>
    obtain ⟨j, v⟩ := c
    simp only [Memory.wfFrom, Bool.and_eq_true, decide_eq_true_eq] at h ⊢
    exact ⟨⟨⟨by omega, h.1.1.2⟩, h.1.2⟩, h.2⟩

theorem Memory.cons_wfFrom {m : Memory} {lo k : Nat} {v : Byte} (hl : lo ≤ k) (hk : k < 65536)
    (h : Memory.wfFrom (k + 1) m = true) : Memory.wfFrom lo (Memory.cons k v m) = true := by
  unfold Memory.cons
  split
  · exact Memory.wfFrom_mono h (by omega)
  · rename_i hv
    simp only [Memory.wfFrom, Bool.and_eq_true, decide_eq_true_eq]
    exact ⟨⟨⟨hl, hk⟩, hv⟩, h⟩

theorem Memory.put_wfFrom {m : Memory} {lo k : Nat} {v : Byte} (hl : lo ≤ k) (hk : k < 65536)
    (h : Memory.wfFrom lo m = true) : Memory.wfFrom lo (m.put k v) = true := by
  induction m generalizing lo with
  | nil => exact Memory.cons_wfFrom hl hk rfl
  | cons c m ih =>
    obtain ⟨j, w⟩ := c
    have h' := h
    simp only [Memory.wfFrom, Bool.and_eq_true, decide_eq_true_eq] at h
    obtain ⟨⟨⟨h1, h2⟩, h3⟩, h4⟩ := h
    unfold Memory.put
    split
    · refine Memory.cons_wfFrom hl hk ?_
      simp only [Memory.wfFrom, Bool.and_eq_true, decide_eq_true_eq]
      exact ⟨⟨⟨by omega, h2⟩, h3⟩, h4⟩
    · split
      · rename_i _ hkj
        subst hkj
        exact Memory.cons_wfFrom hl hk h4
      · simp only [Memory.wfFrom, Bool.and_eq_true, decide_eq_true_eq]
        exact ⟨⟨⟨h1, h2⟩, h3⟩, ih (by omega) h4⟩

theorem Memory.lookup_cons {m : Memory} {k : Nat} {v : Byte} (h : m.lookup k = unlistedByte) :
    (Memory.cons k v m).lookup k = v := by
  unfold Memory.cons
  split
  · rename_i hv
    rw [h, hv]
  · simp [Memory.lookup]

theorem Memory.lookup_cons_ne {m : Memory} {k k' : Nat} {v : Byte} (h : k' ≠ k) :
    (Memory.cons k v m).lookup k' = m.lookup k' := by
  unfold Memory.cons
  split
  · rfl
  · simp [Memory.lookup, Ne.symm h]

/-- Every address but the one written reads as before; no canonical form is needed. -/
theorem Memory.lookup_put_ne {m : Memory} {k k' : Nat} {v : Byte} (h : k' ≠ k) :
    (m.put k v).lookup k' = m.lookup k' := by
  induction m with
  | nil => exact Memory.lookup_cons_ne h
  | cons c m ih =>
    obtain ⟨j, w⟩ := c
    unfold Memory.put
    split
    · exact Memory.lookup_cons_ne h
    · split
      · rename_i _ hkj
        subst hkj
        rw [Memory.lookup_cons_ne h, Memory.lookup, if_neg (Ne.symm h)]
      · simp only [Memory.lookup, ih]

/-- The address written reads as the byte written, in a canonical memory. -/
theorem Memory.lookup_put {m : Memory} {lo k : Nat} {v : Byte} (h : Memory.wfFrom lo m = true) :
    (m.put k v).lookup k = v := by
  induction m generalizing lo with
  | nil => exact Memory.lookup_cons rfl
  | cons c m ih =>
    obtain ⟨j, w⟩ := c
    simp only [Memory.wfFrom, Bool.and_eq_true, decide_eq_true_eq] at h
    obtain ⟨⟨⟨h1, h2⟩, h3⟩, h4⟩ := h
    unfold Memory.put
    split
    · rename_i hlt
      refine Memory.lookup_cons ?_
      have hj : j ≠ k := by omega
      rw [Memory.lookup, if_neg hj]
      exact Memory.lookup_below h4 (by omega)
    · split
      · rename_i _ hkj
        subst hkj
        exact Memory.lookup_cons (Memory.lookup_below h4 (by omega))
      · rename_i _ hne
        rw [Memory.lookup, if_neg (fun e => hne e.symm)]
        exact ih h4

/-- A write keeps the canonical form. -/
theorem Memory.write_wf {m : Memory} {a : Word} {v : Byte} (h : m.wf = true) : (m.write a v).wf = true :=
  Memory.put_wfFrom (Nat.zero_le _) a.isLt h

/-- A store keeps the canonical form. -/
theorem Memory.store_wf {map : List Config.Region} {m : Memory} {a : Word} {v : Byte} (h : m.wf = true) :
    (m.store map a v).wf = true := by
  unfold Memory.store
  split
  · exact Memory.write_wf h
  · exact h

/-- A 16-bit store keeps the canonical form. -/
theorem Memory.store16_wf {map : List Config.Region} {m : Memory} {a : Word} {v : Word} (h : m.wf = true) :
    (m.store16 map a v).wf = true :=
  Memory.store_wf (Memory.store_wf h)

/-- The memory with nothing listed is canonical. -/
theorem Memory.empty_wf : Memory.wf [] = true := rfl

theorem Memory.read_write_same {m : Memory} {a : Word} {v : Byte} (h : m.wf = true) : (m.write a v).read a = v :=
  Memory.lookup_put h

theorem Memory.read_write_ne {m : Memory} {a p : Word} {v : Byte} (h : p ≠ a) : (m.write a v).read p = m.read p :=
  Memory.lookup_put_ne (fun e => h (BitVec.eq_of_toNat_eq e))

/-- What a byte reads as after a write to a canonical memory. -/
theorem Memory.read_write {m : Memory} {a p : Word} {v : Byte} (h : m.wf = true) :
    (m.write a v).read p = if p = a then v else m.read p := by
  split
  · rename_i e
    rw [e, Memory.read_write_same h]
  · rename_i e
    exact Memory.read_write_ne e

/-- A store leaves every byte but its own. -/
theorem Memory.read_store_ne {map : List Config.Region} {m : Memory} {a p : Word} {v : Byte} (h : p ≠ a) :
    (m.store map a v).read p = m.read p := by
  unfold Memory.store
  split
  · exact Memory.read_write_ne h
  · rfl

/-- A store takes effect exactly in RAM (R43, R48). -/
theorem Memory.read_store {map : List Config.Region} {m : Memory} {a : Word} {v : Byte} (h : m.wf = true) :
    (m.store map a v).read a = if backing map a = .ram then v else m.read a := by
  unfold Memory.store
  split
  · exact Memory.read_write_same h
  · rfl

/-- What is not RAM keeps its byte through every store. -/
theorem Memory.read_store_fixed {map : List Config.Region} {m : Memory} {a p : Word} {v : Byte}
    (h : backing map p ≠ .ram) : (m.store map a v).read p = m.read p := by
  unfold Memory.store
  split
  · rename_i ha
    exact Memory.read_write_ne (fun e => h (e ▸ ha))
  · rfl

/-- A 16-bit store leaves every byte but its two. -/
theorem Memory.read_store16_ne {map : List Config.Region} {m : Memory} {a p v : Word} (h1 : p ≠ a) (h2 : p ≠ a + 1) :
    (m.store16 map a v).read p = m.read p := by
  rw [Memory.store16, Memory.read_store_ne h2, Memory.read_store_ne h1]

/-- The high byte of a 16-bit store lies at its address (R42). -/
theorem Memory.read_store16_hi {map : List Config.Region} {m : Memory} {a v : Word} (h : m.wf = true) :
    (m.store16 map a v).read a = if backing map a = .ram then hiByte v else m.read a := by
  rw [Memory.store16, Memory.read_store_ne (by bv_omega), Memory.read_store h]

/-- The low byte of a 16-bit store lies at the next address (R42, R45). -/
theorem Memory.read_store16_lo {map : List Config.Region} {m : Memory} {a v : Word} (h : m.wf = true) :
    (m.store16 map a v).read (a + 1) = if backing map (a + 1) = .ram then loByte v else m.read (a + 1) := by
  rw [Memory.store16, Memory.read_store (Memory.store_wf h), Memory.read_store_ne (by bv_omega)]

/-- Pushing bytes keeps the canonical form. -/
theorem Memory.pushAll_wf {map : List Config.Region} {bs : List Byte} {m : Memory} {p : Word} (h : m.wf = true) :
    (Memory.pushAll map m p bs).wf = true := by
  induction bs generalizing m p with
  | nil => exact h
  | cons v bs ih => exact ih (Memory.store_wf h)

/-- What is not RAM keeps its byte through every push. -/
theorem Memory.read_pushAll_fixed {map : List Config.Region} {bs : List Byte} {m : Memory} {p q : Word}
    (h : backing map q ≠ .ram) : (Memory.pushAll map m p bs).read q = m.read q := by
  induction bs generalizing m p with
  | nil => rfl
  | cons v bs ih => rw [Memory.pushAll, ih, Memory.read_store_fixed h]

/-- An address that no push writes reads as before. -/
theorem Memory.read_pushAll_ne {map : List Config.Region} {bs : List Byte} {m : Memory} {p q : Word}
    (h : ∀ k < bs.length, q ≠ p - BitVec.ofNat 16 k) : (Memory.pushAll map m p bs).read q = m.read q := by
  induction bs generalizing m p with
  | nil => rfl
  | cons v bs ih =>
    rw [Memory.pushAll, ih, Memory.read_store_ne]
    · have := h 0 (by simp)
      simpa using this
    · intro k hk
      have := h (k + 1) (by simpa using hk)
      rw [BitVec.ofNat_add] at this
      intro e
      apply this
      rw [e]
      bv_omega

/-- The `k`-th byte pushed goes `k` addresses below the first, and stays there if that is RAM (R51, R109). -/
theorem Memory.read_pushAll {map : List Config.Region} {bs : List Byte} {m : Memory} {p : Word} (h : m.wf = true)
    (hl : bs.length ≤ 65536) {k : Nat} (hk : k < bs.length) :
    (Memory.pushAll map m p bs).read (p - BitVec.ofNat 16 k) =
      if backing map (p - BitVec.ofNat 16 k) = .ram then bs[k] else m.read (p - BitVec.ofNat 16 k) := by
  induction bs generalizing m p k with
  | nil => simp at hk
  | cons v bs ih =>
    simp only [List.length_cons] at hl hk
    cases k with
    | zero =>
      rw [Memory.pushAll, Memory.read_pushAll_ne]
      · simpa using Memory.read_store h
      · intro j hj
        bv_omega
    | succ k =>
      have e : p - BitVec.ofNat 16 (k + 1) = p - 1 - BitVec.ofNat 16 k := by
        rw [BitVec.ofNat_add]
        bv_omega
      rw [Memory.pushAll, e, ih (Memory.store_wf h) (by omega) (by omega), Memory.read_store_ne (by bv_omega)]
      simp

end Sys2Proof.Machine
end

