-- ==== Sys2Proof/Laws/Ops.lean ====
section
/-! SUPPORT. The shared operations over registers, memory and the stack: what each leaves in registers, flags and memory, said
once, so that no later proof unfolds one. -/

namespace Sys2Proof.Machine

/-! ## Frames -/

theorem Kept.rfl {s : State} {accs : List Acc} {iregs : List IReg} {flags : List Flag} {bytes : List Word} :
    Kept s s accs iregs flags bytes :=
  ⟨fun _ _ => Eq.refl _, fun _ _ => Eq.refl _, fun _ _ => Eq.refl _, fun _ _ => Eq.refl _, Eq.refl _⟩

theorem Kept.trans {s t u : State} {accs : List Acc} {iregs : List IReg} {flags : List Flag} {bytes : List Word}
    (h : Kept s t accs iregs flags bytes) (k : Kept t u accs iregs flags bytes) : Kept s u accs iregs flags bytes :=
  ⟨fun a ha => (k.accs a ha).trans (h.accs a ha), fun r hr => (k.iregs r hr).trans (h.iregs r hr),
   fun f hf => (k.flags f hf).trans (h.flags f hf), fun p hp => (k.bytes p hp).trans (h.bytes p hp),
   k.cfg.trans h.cfg⟩

/-- A frame that allows fewer changes allows them within a larger one. -/
theorem Kept.mono {s t : State} {accs accs' : List Acc} {iregs iregs' : List IReg} {flags flags' : List Flag}
    {bytes bytes' : List Word} (h : Kept s t accs iregs flags bytes) (ha : accs ⊆ accs') (hi : iregs ⊆ iregs')
    (hf : flags ⊆ flags') (hb : bytes ⊆ bytes') : Kept s t accs' iregs' flags' bytes' :=
  ⟨fun a h' => h.accs a (fun m => h' (ha m)), fun r h' => h.iregs r (fun m => h' (hi m)),
   fun f h' => h.flags f (fun m => h' (hf m)), fun p h' => h.bytes p (fun m => h' (hb m)),
   h.cfg⟩

theorem SameModel.trans {s t u : State} (h : SameModel s t) (k : SameModel t u) : SameModel s u :=
  ⟨k.inputs.trans h.inputs, k.draws.trans h.draws, k.opcodeAt.trans h.opcodeAt, k.operandAt.trans h.operandAt⟩

theorem SameControl.rfl {s : State} : SameControl s s := ⟨⟨Eq.refl _, Eq.refl _, Eq.refl _, Eq.refl _⟩, Eq.refl _⟩

theorem SameControl.trans {s t u : State} (h : SameControl s t) (k : SameControl t u) : SameControl s u :=
  ⟨h.toSameModel.trans k.toSameModel, k.run.trans h.run⟩

/-! ## Writing registers and flags -/

theorem State.setAcc_kept (s : State) (a : Acc) (v : Byte) : Kept s (s.setAcc a v) [a] [] [] [] := by
  constructor <;> simp +contextual

theorem State.setDbl_kept (s : State) (d : Dbl) (v : Word) : Kept s (s.setDbl d v) d.halves [] [] [] := by
  constructor
  · intro a ha
    cases d <;> cases a <;> simp_all [Dbl.halves, State.setDbl, State.acc]
  · simp
  · simp
  · simp
  · simp

theorem State.setIreg_kept (s : State) (r : IReg) (v : Word) : Kept s (s.setIreg r v) [] [r] [] [] := by
  constructor <;> simp +contextual

theorem State.setFlag_kept (s : State) (f : Flag) (v : Bool) : Kept s (s.setFlag f v) [] [] [f] [] := by
  constructor <;> simp +contextual

theorem State.setNZ0_kept {w : Nat} (s : State) (r : BitVec w) : Kept s (s.setNZ0 r) [] [] [.N, .Z, .V] [] := by
  constructor <;> simp +contextual [State.setNZ0_flag]

theorem State.setNZV_kept {w : Nat} (s : State) (r : BitVec w) (v : Bool) :
    Kept s (s.setNZV r v) [] [] [.N, .Z, .V] [] := by
  constructor <;> simp +contextual [State.setNZV_flag]

theorem State.setNZVC_kept {w : Nat} (s : State) (r : BitVec w) (v c : Bool) :
    Kept s (s.setNZVC r v c) [] [] [.N, .Z, .V, .C] [] := by
  constructor <;> simp +contextual [State.setNZVC_flag]

theorem State.setAlu_kept {w : Nat} (s : State) (r : Alu w) : Kept s (s.setAlu r) [] [] [.N, .Z, .V, .C] [] :=
  s.setNZVC_kept _ _ _

/-- H, if the instruction writes it. -/
theorem State.setHalf_flag (s : State) (w : Config.HWriter) (v : Bool) (g : Flag) :
    (s.setHalf w v).flag g = if g = .H ∧ w ∈ s.cfg.hWriters then v else s.flag g := by
  unfold State.setHalf
  by_cases h : w ∈ s.cfg.hWriters <;> simp [h]

theorem State.setHalf_kept (s : State) (w : Config.HWriter) (v : Bool) : Kept s (s.setHalf w v) [] [] [.H] [] := by
  constructor <;> simp +contextual [State.setHalf_flag]

theorem State.setAcc_falls (s : State) (a : Acc) (v : Byte) : Falls s (s.setAcc a v) := by
  cases a <;> exact ⟨⟨⟨rfl, rfl, rfl, rfl⟩, rfl⟩, rfl, rfl⟩

theorem State.setDbl_falls (s : State) (d : Dbl) (v : Word) : Falls s (s.setDbl d v) := by
  cases d <;> exact ⟨⟨⟨rfl, rfl, rfl, rfl⟩, rfl⟩, rfl, rfl⟩

theorem State.setIreg_falls (s : State) (r : IReg) (v : Word) : Falls s (s.setIreg r v) := by
  cases r <;> exact ⟨⟨⟨rfl, rfl, rfl, rfl⟩, rfl⟩, rfl, rfl⟩

theorem State.setHalf_falls (s : State) (w : Config.HWriter) (v : Bool) : Falls s (s.setHalf w v) := by
  unfold State.setHalf
  split <;> exact ⟨⟨⟨rfl, rfl, rfl, rfl⟩, rfl⟩, rfl, rfl⟩

theorem Falls.rfl {s : State} : Falls s s := ⟨SameControl.rfl, Eq.refl _, Eq.refl _⟩

theorem Falls.trans {s t u : State} (h : Falls s t) (k : Falls t u) : Falls s u :=
  ⟨h.toSameControl.trans k.toSameControl, k.sp.trans h.sp, k.pc.trans h.pc⟩

/-- Writing CCR alone lets the instruction fall through. -/
theorem State.ccr_falls (s : State) (c : Byte) : Falls s { s with ccr := c } :=
  ⟨⟨⟨Eq.refl _, Eq.refl _, Eq.refl _, Eq.refl _⟩, Eq.refl _⟩, Eq.refl _, Eq.refl _⟩

theorem State.write8_falls (s : State) (p : Word) (v : Byte) : Falls s (s.write8 p v) :=
  ⟨⟨⟨Eq.refl _, Eq.refl _, Eq.refl _, Eq.refl _⟩, Eq.refl _⟩, Eq.refl _, Eq.refl _⟩

theorem State.write16_falls (s : State) (p v : Word) : Falls s (s.write16 p v) :=
  ⟨⟨⟨Eq.refl _, Eq.refl _, Eq.refl _, Eq.refl _⟩, Eq.refl _⟩, Eq.refl _, Eq.refl _⟩

/-! ## Flags -/

theorem State.setNZ0_logic {w : Nat} (s : State) (r : BitVec w) : LogicFlags (s.setNZ0 r) r := by
  constructor <;> simp [State.NZof, State.setNZ0_flag]

/-- The flags of an addition, from the state they are set in to any state with the same CCR. -/
theorem State.setAlu_add {w : Nat} (s : State) (p q : BitVec w) (cin : Bool) :
    AddFlags (s.setAlu (addAlu p q cin)) p q (addAlu p q cin).value cin := by
  exact ⟨⟨State.setAlu_flag s _ .N, State.setAlu_flag s _ .Z⟩, State.setAlu_flag s _ .V, State.setAlu_flag s _ .C⟩

theorem State.setAlu_sub {w : Nat} (s : State) (p q : BitVec w) (bin : Bool) :
    SubFlags (s.setAlu (subAlu p q bin)) p q (subAlu p q bin).value bin := by
  exact ⟨⟨State.setAlu_flag s _ .N, State.setAlu_flag s _ .Z⟩, State.setAlu_flag s _ .V, State.setAlu_flag s _ .C⟩

theorem State.setAlu_shift {w : Nat} (s : State) (r : BitVec w) (out : Bool) :
    ShiftFlags (s.setAlu (shiftAlu r out)) r out := by
  constructor <;> simp [State.NZof, State.setAlu_flag, shiftAlu]

/-- The value of an addition (R113, R115). -/
theorem addAlu_value {w : Nat} (p q : BitVec w) (cin : Bool) :
    (addAlu p q cin).value = p + q + BitVec.ofNat w cin.toNat := by
  apply BitVec.eq_of_toNat_eq
  simp [addAlu, BitVec.toNat_add, Nat.add_mod]

/-! ## The half-carry that no rule gives a value (R19; D10, U7; entry 9) -/

/-- Every other flag is as it was. -/
theorem State.freeHalf_flag (s : State) (w : Config.HWriter) {f : Flag} (h : f ≠ .H) : (s.freeHalf w).flag f = s.flag f := by
  simp [State.freeHalf, State.setHalf_flag, h]

/-- Nothing changes but H, and that only in an instruction of `H_WRITERS`. -/
theorem State.freeHalf_kept (s : State) (w : Config.HWriter) : Kept s (s.freeHalf w) [] [] (s.writes w []) [] := by
  refine ⟨by simp, by simp, fun f h => ?_, by simp, by simp⟩
  rw [State.freeHalf, State.setHalf_flag]
  refine if_neg ?_
  rintro ⟨rfl, hw⟩
  simp [State.writes, hw] at h

/-- The frame of an instruction with the half-carry left free. -/
theorem Kept.freeHalf {s t : State} {accs : List Acc} {iregs : List IReg} {flags : List Flag} {bytes : List Word}
    (h : Kept s t accs iregs flags bytes) (w : Config.HWriter) :
    Kept s (t.freeHalf w) accs iregs (s.writes w flags) bytes := by
  have e : t.writes w [] = s.writes w [] := by simp [State.writes, h.cfg]
  refine (h.mono (fun _ => id) (fun _ => id) (fun f hf => ?_) (fun _ => id)).trans
    ((t.freeHalf_kept w).mono (by simp) (by simp) (fun f hf => ?_) (by simp))
  · unfold State.writes
    split <;> simp [hf]
  · rw [e] at hf
    unfold State.writes at hf ⊢
    split <;> simp_all

theorem Falls.freeHalf {s t : State} (h : Falls s t) (w : Config.HWriter) : Falls s (t.freeHalf w) :=
  h.trans (State.setHalf_falls t w _)

theorem State.NZof.freeHalf {n : Nat} {t : State} {r : BitVec n} (h : t.NZof r) (w : Config.HWriter) :
    (t.freeHalf w).NZof r :=
  ⟨(t.freeHalf_flag w (by decide)).trans h.1, (t.freeHalf_flag w (by decide)).trans h.2⟩

theorem LogicFlags.freeHalf {n : Nat} {t : State} {r : BitVec n} (h : LogicFlags t r) (w : Config.HWriter) :
    LogicFlags (t.freeHalf w) r :=
  ⟨h.nz.freeHalf w, (t.freeHalf_flag w (by decide)).trans h.v⟩

theorem AddFlags.freeHalf {n : Nat} {t : State} {p q r : BitVec n} {b : Bool} (h : AddFlags t p q r b)
    (w : Config.HWriter) : AddFlags (t.freeHalf w) p q r b :=
  ⟨h.nz.freeHalf w, (t.freeHalf_flag w (by decide)).trans h.v, (t.freeHalf_flag w (by decide)).trans h.c⟩

theorem SubFlags.freeHalf {n : Nat} {t : State} {p q r : BitVec n} {b : Bool} (h : SubFlags t p q r b)
    (w : Config.HWriter) : SubFlags (t.freeHalf w) p q r b :=
  ⟨h.nz.freeHalf w, (t.freeHalf_flag w (by decide)).trans h.v, (t.freeHalf_flag w (by decide)).trans h.c⟩

theorem ShiftFlags.freeHalf {n : Nat} {t : State} {r : BitVec n} {b : Bool} (h : ShiftFlags t r b)
    (w : Config.HWriter) : ShiftFlags (t.freeHalf w) r b :=
  ⟨h.nz.freeHalf w, (t.freeHalf_flag w (by decide)).trans h.v, (t.freeHalf_flag w (by decide)).trans h.c⟩

/-! ## Memory -/

/-- Where there is memory a read gives what it holds (R43). -/
theorem State.read8_backed {s : State} {p : Word} (h : s.backed p = true) : s.read8 p = s.mem.read p := by
  simp [State.read8, h]

/-- RAM is memory. -/
theorem State.backed_of_writable {s : State} {p : Word} (h : s.writable p = true) : s.backed p = true := by
  simp only [State.writable, decide_eq_true_eq] at h
  simp [State.backed, h]

/-- A byte stored in RAM reads back. -/
theorem Stored.read8 {s t : State} {p : Word} {v : Byte} (h : Stored s t p v) (hc : t.cfg = s.cfg)
    (hw : s.writable p = true) : t.read8 p = v := by
  have hb : t.backed p = true := by
    have := State.backed_of_writable hw
    rwa [State.backed, ← hc] at this
  rw [State.read8_backed hb, h, if_pos hw]

/-- `Stored` looks at what memory holds alone. -/
theorem Stored.of_mem {s t u : State} {p : Word} {v : Byte} (h : Stored s t p v) (e : u.mem = t.mem) : Stored s u p v := by
  rw [Stored, e]
  exact h

theorem Stored.freeHalf {s t : State} {p : Word} {v : Byte} (h : Stored s t p v) (w : Config.HWriter) :
    Stored s (t.freeHalf w) p v :=
  h.of_mem (t.freeHalf_mem w)

theorem State.write8_stored {s : State} (h : s.Inv) (p : Word) (v : Byte) : Stored s (s.write8 p v) p v := by
  simpa [State.writable, Stored] using Memory.read_store (map := s.cfg.memMap) (a := p) (v := v) h

theorem State.write16_hi {s : State} (h : s.Inv) (p v : Word) : Stored s (s.write16 p v) p (hiByte v) := by
  simpa [State.writable, Stored] using Memory.read_store16_hi (map := s.cfg.memMap) (a := p) (v := v) h

theorem State.write16_lo {s : State} (h : s.Inv) (p v : Word) : Stored s (s.write16 p v) (p + 1) (loByte v) := by
  simpa [State.writable, Stored] using Memory.read_store16_lo (map := s.cfg.memMap) (a := p) (v := v) h

theorem State.write8_kept (s : State) (p : Word) (v : Byte) : Kept s (s.write8 p v) [] [] [] [p] := by
  constructor
  · simp
  · simp
  · simp
  · intro q hq
    exact Memory.read_store_ne (by simpa using hq)
  · rfl

theorem State.write16_kept (s : State) (p v : Word) : Kept s (s.write16 p v) [] [] [] (wordAt p) := by
  constructor
  · simp
  · simp
  · simp
  · intro q hq
    simp only [wordAt, List.mem_cons, List.not_mem_nil, or_false, not_or] at hq
    exact Memory.read_store16_ne hq.1 hq.2
  · rfl

/-- A word written to RAM reads back (R43). -/
theorem State.read16_write16 {s : State} (h : s.Inv) (p v : Word) (h0 : s.writable p = true)
    (h1 : s.writable (p + 1) = true) : (s.write16 p v).read16 p = v := by
  rw [State.read16, (State.write16_hi h p v).read8 rfl h0, (State.write16_lo h p v).read8 rfl h1, join_hiByte_loByte]

/-! ## The stack -/

/-- The addresses that a run of `n` pushes from `sp` writes (R109). -/
def pushedAddrs (sp : Word) (n : Nat) : List Word := (List.range n).map (fun k => sp - BitVec.ofNat 16 k)

theorem State.push_kept (s : State) (bs : List Byte) : Kept s (s.push bs) [] [] [] (pushedAddrs s.sp bs.length) := by
  constructor
  · intro a _
    cases a <;> rfl
  · intro r _
    cases r <;> rfl
  · intro f _
    rfl
  · intro q hq
    refine Memory.read_pushAll_ne (fun k hk e => hq ?_)
    simp only [pushedAddrs, List.mem_map, List.mem_range]
    exact ⟨k, hk, e.symm⟩
  · rfl

/-- The `k`-th byte pushed is stored at S - k (R109). -/
theorem State.push_stored {s : State} (h : s.Inv) {bs : List Byte} (hl : bs.length ≤ 65536) {k : Nat}
    (hk : k < bs.length) : Stored s (s.push bs) (s.sp - BitVec.ofNat 16 k) bs[k] := by
  simpa [State.writable, Stored, State.push] using Memory.read_pushAll (map := s.cfg.memMap) (p := s.sp) h hl hk

theorem State.push_control (s : State) (bs : List Byte) : SameControl s (s.push bs) := ⟨⟨rfl, rfl, rfl, rfl⟩, rfl⟩

theorem State.push_pc (s : State) (bs : List Byte) : (s.push bs).pc = s.pc := rfl

theorem State.push_sp (s : State) (bs : List Byte) : (s.push bs).sp = s.sp - BitVec.ofNat 16 bs.length := rfl

/-- Everything `Push8(v)` does (R109). -/
theorem State.push8_spec {s : State} (h : s.Inv) (v : Byte) :
    Stored s (s.push8 v) s.sp v ∧ (s.push8 v).sp = s.sp - 1 ∧ (s.push8 v).pc = s.pc ∧
      Kept s (s.push8 v) [] [] [] [s.sp] ∧ SameControl s (s.push8 v) := by
  refine ⟨?_, rfl, rfl, ?_, s.push_control _⟩
  · have := State.push_stored h (bs := [v]) (by simp) (k := 0) (by simp)
    rw [BitVec.sub_zero] at this
    exact this
  · exact (s.push_kept [v]).mono (by simp) (by simp) (by simp) (by simp [pushedAddrs])

/-- Everything `Push16(v)` does (R111). -/
theorem State.push16_spec {s : State} (h : s.Inv) (v : Word) :
    Stored s (s.push16 v) s.sp (loByte v) ∧ Stored s (s.push16 v) (s.sp - 1) (hiByte v) ∧
      (s.push16 v).sp = s.sp - 2 ∧ (s.push16 v).pc = s.pc ∧
      Kept s (s.push16 v) [] [] [] [s.sp, s.sp - 1] ∧ SameControl s (s.push16 v) := by
  refine ⟨?_, State.push_stored h (bs := pushed16 v) (by simp [pushed16]) (k := 1) (by simp [pushed16]), rfl, rfl, ?_,
    s.push_control _⟩
  · have := State.push_stored h (bs := pushed16 v) (by simp [pushed16]) (k := 0) (by simp [pushed16])
    rw [BitVec.sub_zero] at this
    exact this
  · exact (s.push_kept (pushed16 v)).mono (by simp) (by simp) (by simp)
      (by simp [pushedAddrs, pushed16, List.range_succ])

/-! ## Interrupts and the return from them -/

/-- Everything the thirteen pushes of the acknowledge phase do (R304, R305). -/
theorem State.pushFrame_spec {s : State} (h : s.Inv) (ret : Word) :
    FrameStored s (s.pushFrame ret) ret ∧ (s.pushFrame ret).sp = s.sp - 13 ∧ (s.pushFrame ret).pc = s.pc ∧
      Kept s (s.pushFrame ret) [] [] [] (frameAddrs s.sp) ∧ SameControl s (s.pushFrame ret) := by
  have hl : (s.frameBytes ret).length = 13 := rfl
  have key (k : Nat) (hk : k < 13) :
      Stored s (s.pushFrame ret) (s.sp - BitVec.ofNat 16 k) ((s.frameBytes ret)[k]'(by rw [hl]; exact hk)) :=
    State.push_stored h (by rw [hl]; omega) (by rw [hl]; exact hk)
  refine ⟨⟨?_, key 1 (by omega), key 2 (by omega), key 3 (by omega), key 4 (by omega), key 5 (by omega),
    key 6 (by omega), key 7 (by omega), key 8 (by omega), key 9 (by omega), key 10 (by omega), key 11 (by omega),
    key 12 (by omega)⟩, rfl, rfl, ?_, s.push_control _⟩
  · have := key 0 (by omega)
    rw [BitVec.sub_zero] at this
    exact this
  · exact (s.push_kept (s.frameBytes ret)).mono (by simp) (by simp) (by simp)
      (by simp [pushedAddrs, hl, frameAddrs, List.range_succ])

/-- Everything the acknowledge phase does (R304, R305). -/
theorem State.interruptEntry_spec {s : State} (h : s.Inv) (ret vec : Word) :
    FrameStored s (s.interruptEntry ret vec) ret ∧ (s.interruptEntry ret vec).sp = s.sp - 13 ∧
      (s.interruptEntry ret vec).pc = (s.interruptEntry ret vec).read16 vec ∧
      (s.interruptEntry ret vec).flag .I = true ∧ (s.interruptEntry ret vec).run = .running ∧
      Kept s (s.interruptEntry ret vec) [] [] [.I] (frameAddrs s.sp) ∧ SameModel s (s.interruptEntry ret vec) := by
  obtain ⟨hf, hs, _, hk, hc⟩ := State.pushFrame_spec h ret
  refine ⟨hf, hs, rfl, ?_, rfl, ?_, ⟨rfl, rfl, rfl, rfl⟩⟩
  · simp [State.interruptEntry, State.enterAt_flag]
  · refine (hk.mono (by simp) (by simp) (by simp) (fun _ => id)).trans ?_
    constructor <;> simp +contextual [State.interruptEntry, State.enterAt_flag]

end Sys2Proof.Machine
end

