-- ==== Sys2Proof/Laws/Shapes.lean ====
section
/-! SUPPORT. What each shared instruction shape does: its result, its flags, and what it leaves. One lemma per shape, which
says everything it does. -/

namespace Sys2Proof.Machine

/-! ## 8-bit operations -/

theorem load8_spec (a : Acc) (o : Src8) (s : State) :
    (load8 a o s).acc a = oper8 o s ∧ LogicFlags (load8 a o s) (oper8 o s) ∧
      Kept s (load8 a o s) [a] [] [.N, .Z, .V] [] ∧ Falls s (load8 a o s) := by
  refine ⟨by simp [load8], State.setNZ0_logic _ _, ?_, (s.setAcc_falls a _).trans (State.ccr_falls _ _)⟩
  exact ((s.setAcc_kept a _).mono (by simp) (by simp) (by simp) (by simp)).trans
    ((State.setNZ0_kept _ _).mono (by simp) (by simp) (by simp) (by simp))

theorem store8_spec {s : State} (h : s.Inv) (a : Acc) (m : MemOp) :
    Stored s (store8 a m s) (ea m s) (s.acc a) ∧ LogicFlags (store8 a m s) (s.acc a) ∧
      Kept s (store8 a m s) [] [] [.N, .Z, .V] [ea m s] ∧ Falls s (store8 a m s) := by
  refine ⟨?_, State.setNZ0_logic _ _, ?_, (s.write8_falls _ _).trans (State.ccr_falls _ _)⟩
  · exact (State.write8_stored h (ea m s) (s.acc a)).of_mem rfl
  · exact ((s.write8_kept _ _).mono (by simp) (by simp) (by simp) (by simp)).trans
      ((State.setNZ0_kept _ _).mono (by simp) (by simp) (by simp) (by simp))

theorem transfer8_spec (dst src : Acc) (s : State) :
    (transfer8 dst src s).acc dst = s.acc src ∧ LogicFlags (transfer8 dst src s) (s.acc src) ∧
      Kept s (transfer8 dst src s) [dst] [] [.N, .Z, .V] [] ∧ Falls s (transfer8 dst src s) := by
  refine ⟨by simp [transfer8], State.setNZ0_logic _ _, ?_, (s.setAcc_falls _ _).trans (State.ccr_falls _ _)⟩
  exact ((s.setAcc_kept _ _).mono (by simp) (by simp) (by simp) (by simp)).trans
    ((State.setNZ0_kept _ _).mono (by simp) (by simp) (by simp) (by simp))

theorem logic8To_spec (a : Acc) (r : Byte) (s : State) :
    (logic8To a r s).acc a = r ∧ LogicFlags (logic8To a r s) r ∧
      Kept s (logic8To a r s) [a] [] [.N, .Z, .V] [] ∧ Falls s (logic8To a r s) := by
  refine ⟨by simp [logic8To], State.setNZ0_logic _ _, ?_, (s.setAcc_falls _ _).trans (State.ccr_falls _ _)⟩
  exact ((s.setAcc_kept _ _).mono (by simp) (by simp) (by simp) (by simp)).trans
    ((State.setNZ0_kept _ _).mono (by simp) (by simp) (by simp) (by simp))

theorem pull8To_spec (a : Acc) (s : State) :
    (pull8To a s).acc a = s.read8 (s.sp + 1) ∧ (pull8To a s).sp = s.sp + 1 ∧ (pull8To a s).pc = s.pc ∧
      Kept s (pull8To a s) [a] [] [] [] ∧ SameControl s (pull8To a s) := by
  refine ⟨by simp [pull8To, State.pulled], by simp [pull8To, State.dropped], by simp [pull8To], ?_, ?_⟩
  · constructor <;> simp +contextual [pull8To]
  · refine ⟨⟨?_, ?_, ?_, ?_⟩, ?_⟩ <;> simp [pull8To]

theorem add8To_spec (w : Config.HWriter) (a : Acc) (q : Byte) (cin : Bool) (s : State) :
    (add8To w a q cin s).acc a = s.acc a + q + BitVec.ofNat 8 cin.toNat ∧
      AddFlags (add8To w a q cin s) (s.acc a) q (s.acc a + q + BitVec.ofNat 8 cin.toNat) cin ∧
      (add8To w a q cin s).flag .H = (if w ∈ s.cfg.hWriters
        then decide (16 ≤ (s.acc a).toNat % 16 + q.toNat % 16 + cin.toNat) else s.flag .H) ∧
      Kept s (add8To w a q cin s) [a] [] [.N, .Z, .V, .C, .H] [] ∧ Falls s (add8To w a q cin s) := by
  have hv := addAlu_value (s.acc a) q cin
  obtain ⟨⟨hn, hz⟩, hV, hC⟩ := State.setAlu_add (s.setAcc a (addAlu (s.acc a) q cin).value) (s.acc a) q cin
  refine ⟨by simp [add8To, hv], ?_, ?_, ?_, ?_⟩
  · rw [← hv]
    exact ⟨⟨by simpa [add8To, State.setHalf_flag] using hn, by simpa [add8To, State.setHalf_flag] using hz⟩,
      by simpa [add8To, State.setHalf_flag] using hV, by simpa [add8To, State.setHalf_flag] using hC⟩
  · simp [add8To, State.setHalf_flag, State.setAlu_flag, addAlu]
  · exact (((s.setAcc_kept _ _).mono (by simp) (by simp) (by simp) (by simp)).trans
      ((State.setAlu_kept _ _).mono (by simp) (by simp) (by simp) (by simp))).trans
      ((State.setHalf_kept _ _ _).mono (by simp) (by simp) (by simp) (by simp))
  · exact ((s.setAcc_falls _ _).trans (State.ccr_falls _ _)).trans (State.setHalf_falls _ _ _)

theorem sub8From_spec (a : Acc) (q : Byte) (bin : Bool) (s : State) :
    (sub8From a q bin s).acc a = s.acc a - q - BitVec.ofNat 8 bin.toNat ∧
      SubFlags (sub8From a q bin s) (s.acc a) q (s.acc a - q - BitVec.ofNat 8 bin.toNat) bin ∧
      Kept s (sub8From a q bin s) [a] [] [.N, .Z, .V, .C] [] ∧ Falls s (sub8From a q bin s) := by
  refine ⟨by simp [sub8From, subAlu], State.setAlu_sub _ _ _ _, ?_, (s.setAcc_falls _ _).trans (State.ccr_falls _ _)⟩
  exact ((s.setAcc_kept _ _).mono (by simp) (by simp) (by simp) (by simp)).trans
    ((State.setAlu_kept _ _).mono (by simp) (by simp) (by simp) (by simp))

theorem compare8_spec (a : Acc) (q : Byte) (s : State) :
    SubFlags (compare8 a q s) (s.acc a) q (s.acc a - q) false ∧
      Kept s (compare8 a q s) [] [] [.N, .Z, .V, .C] [] ∧ Falls s (compare8 a q s) := by
  refine ⟨?_, State.setAlu_kept _ _, State.ccr_falls _ _⟩
  have hv : (subAlu (s.acc a) q false).value = s.acc a - q := by simp [subAlu]
  rw [← hv]
  exact State.setAlu_sub _ _ _ _

theorem signExtend_spec (d : Dbl) (v : Byte) (s : State) :
    (signExtend d v s).dbl d = sext16 v ∧ (signExtend d v s).NZof (sext16 v) ∧
      (signExtend d v s).flag .V = false ∧ (signExtend d v s).flag .C = false ∧
      Kept s (signExtend d v s) d.halves [] [.N, .Z, .V, .C] [] ∧ Falls s (signExtend d v s) := by
  refine ⟨by simp [signExtend, State.setDbl_dbl], ?_, ?_, ?_, ?_, (s.setDbl_falls _ _).trans (State.ccr_falls _ _)⟩
  · constructor <;> simp [signExtend, State.setNZVC_flag]
  · simp [signExtend, State.setNZVC_flag]
  · simp [signExtend, State.setNZVC_flag]
  · exact ((s.setDbl_kept _ _).mono (by simp) (by simp) (by simp) (by simp)).trans
      ((State.setNZVC_kept _ _ _ _).mono (by simp) (by simp) (by simp) (by simp))

theorem multiply8_spec (s : State) :
    (multiply8 s).dbl .D = mulProduct s.a s.b ∧ (multiply8 s).flag .C = mulCarry s.cfg.mulC s.a s.b ∧
      Kept s (multiply8 s) [.A, .B] [] [.C] [] ∧ Falls s (multiply8 s) := by
  refine ⟨by simp [multiply8, State.setDbl_dbl], by simp [multiply8], ?_,
    (s.setDbl_falls _ _).trans (State.ccr_falls _ _)⟩
  exact ((s.setDbl_kept .D _).mono (by simp [Dbl.halves]) (by simp) (by simp) (by simp)).trans
    ((State.setFlag_kept _ _ _).mono (by simp) (by simp) (by simp) (by simp))

/-- DAA, with V the free value. -/
theorem decimalAdjust_spec (s : State) :
    (decimalAdjust s).a = (daaFn s.cfg.daaFn s.draws s.a (s.flag .C) (s.flag .H)).1 ∧
      (decimalAdjust s).NZof (daaFn s.cfg.daaFn s.draws s.a (s.flag .C) (s.flag .H)).1 ∧
      (decimalAdjust s).flag .C = (daaFn s.cfg.daaFn s.draws s.a (s.flag .C) (s.flag .H)).2 ∧
      Kept s (decimalAdjust s) [.A] [] [.N, .Z, .V, .C] [] ∧ Falls s (decimalAdjust s) := by
  simp only [decimalAdjust]
  generalize daaFn s.cfg.daaFn s.draws s.a (s.flag .C) (s.flag .H) = r
  generalize Config.daaV s.draws s.a (s.flag .C) (s.flag .H) = v
  refine ⟨by simp [State.setAcc], ⟨?_, ?_⟩, ?_, ?_, (s.setAcc_falls _ _).trans (State.ccr_falls _ _)⟩
  · simp [State.setNZVC_flag]
  · simp [State.setNZVC_flag]
  · simp [State.setNZVC_flag]
  · exact ((s.setAcc_kept _ _).mono (by simp) (by simp) (by simp) (by simp)).trans
      ((State.setNZVC_kept _ _ _ _).mono (by simp) (by simp) (by simp) (by simp))

/-! ## Instructions that work on an operand in place -/

theorem writeTarget_kept (tg : Target8) (v : Byte) (s : State) :
    Kept s (writeTarget tg v s) tg.accs [] [] (tg.bytes s) := by
  cases tg with
  | acc a => exact s.setAcc_kept a v
  | mem m => exact s.write8_kept _ v

theorem writeTarget_falls (tg : Target8) (v : Byte) (s : State) : Falls s (writeTarget tg v s) := by
  cases tg with
  | acc a => exact s.setAcc_falls a v
  | mem m => exact s.write8_falls _ v

theorem writeTarget_takes {s : State} (h : s.Inv) (tg : Target8) (v : Byte) : Takes tg s (writeTarget tg v s) v := by
  cases tg with
  | acc a => simp [Takes, writeTarget]
  | mem m => exact State.write8_stored h _ v

/-- Writing CCR leaves the operand's value. -/
theorem Takes.ccr {tg : Target8} {s t : State} {v : Byte} (h : Takes tg s t v) (c : Byte) :
    Takes tg s { t with ccr := c } v := by
  cases tg with
  | acc a => cases a <;> exact h
  | mem m => exact h

theorem Takes.freeHalf {tg : Target8} {s t : State} {v : Byte} (h : Takes tg s t v) (w : Config.HWriter) :
    Takes tg s (t.freeHalf w) v := by
  cases tg with
  | acc a => exact (t.freeHalf_acc w a).trans h
  | mem m => exact Stored.freeHalf h w

/-- Read, compute, write in place, the columns `N Z V -`. -/
theorem modify8_nzv {s : State} (h : s.Inv) (tg : Target8) (f : Byte → Alu 8) :
    Takes tg s (modify8 tg f State.setNZVof s) (f (readTarget tg s)).value ∧
      (modify8 tg f State.setNZVof s).NZof (f (readTarget tg s)).value ∧
      (modify8 tg f State.setNZVof s).flag .V = (f (readTarget tg s)).overflow ∧
      Kept s (modify8 tg f State.setNZVof s) tg.accs [] [.N, .Z, .V] (tg.bytes s) ∧
      Falls s (modify8 tg f State.setNZVof s) := by
  refine ⟨(writeTarget_takes h _ _).ccr _,
    ⟨State.setNZV_flag _ _ _ .N, State.setNZV_flag _ _ _ .Z⟩, State.setNZV_flag _ _ _ .V, ?_,
    (writeTarget_falls _ _ s).trans (State.ccr_falls _ _)⟩
  exact ((writeTarget_kept tg _ s).mono (by simp) (by simp) (by simp) (fun _ h => h)).trans
    ((State.setNZV_kept _ _ _).mono (by simp) (by simp) (by simp) (by simp))

/-- Read, compute, write in place, the columns `N Z V C`. -/
theorem modify8_nzvc {s : State} (h : s.Inv) (tg : Target8) (f : Byte → Alu 8) :
    Takes tg s (modify8 tg f State.setAlu s) (f (readTarget tg s)).value ∧
      (modify8 tg f State.setAlu s).NZof (f (readTarget tg s)).value ∧
      (modify8 tg f State.setAlu s).flag .V = (f (readTarget tg s)).overflow ∧
      (modify8 tg f State.setAlu s).flag .C = (f (readTarget tg s)).carry ∧
      Kept s (modify8 tg f State.setAlu s) tg.accs [] [.N, .Z, .V, .C] (tg.bytes s) ∧
      Falls s (modify8 tg f State.setAlu s) := by
  refine ⟨(writeTarget_takes h _ _).ccr _,
    ⟨State.setAlu_flag _ _ .N, State.setAlu_flag _ _ .Z⟩, State.setAlu_flag _ _ .V, State.setAlu_flag _ _ .C, ?_,
    (writeTarget_falls _ _ s).trans (State.ccr_falls _ _)⟩
  exact ((writeTarget_kept tg _ s).mono (by simp) (by simp) (by simp) (fun _ h => h)).trans
    ((State.setAlu_kept _ _).mono (by simp) (by simp) (by simp) (by simp))

theorem clear8_spec {s : State} (h : s.Inv) (tg : Target8) :
    Takes tg s (clear8 tg s) 0 ∧ (clear8 tg s).NZof 0#8 ∧ (clear8 tg s).flag .V = false ∧
      (clear8 tg s).flag .C = false ∧ Kept s (clear8 tg s) tg.accs [] [.N, .Z, .V, .C] (tg.bytes s) ∧
      Falls s (clear8 tg s) :=
  modify8_nzvc h tg (fun _ => clrAlu)

theorem test8_spec (tg : Target8) (s : State) :
    (test8 tg s).NZof (readTarget tg s) ∧ (test8 tg s).flag .V = false ∧ (test8 tg s).flag .C = false ∧
      Kept s (test8 tg s) [] [] [.N, .Z, .V, .C] [] ∧ Falls s (test8 tg s) :=
  ⟨⟨State.setAlu_flag _ _ .N, State.setAlu_flag _ _ .Z⟩, State.setAlu_flag _ _ .V, State.setAlu_flag _ _ .C,
   State.setAlu_kept _ _, State.ccr_falls _ _⟩

theorem changeBits_spec {s : State} (h : s.Inv) (m : MemOp) (f : Byte → Byte) :
    Stored s (changeBits m f s) (ea m s) (f (s.read8 (ea m s))) ∧
      LogicFlags (changeBits m f s) (f (s.read8 (ea m s))) ∧
      Kept s (changeBits m f s) [] [] [.N, .Z, .V] [ea m s] ∧ Falls s (changeBits m f s) := by
  refine ⟨?_, State.setNZ0_logic _ _, ?_, (s.write8_falls _ _).trans (State.ccr_falls _ _)⟩
  · exact (State.write8_stored h (ea m s) (f (s.read8 (ea m s)))).of_mem rfl
  · exact ((s.write8_kept _ _).mono (by simp) (by simp) (by simp) (by simp)).trans
      ((State.setNZ0_kept _ _).mono (by simp) (by simp) (by simp) (by simp))

/-! ## 16-bit operations -/

theorem load16_spec (d : Dbl) (o : Src16) (s : State) :
    (load16 d o s).dbl d = oper16 o s ∧ LogicFlags (load16 d o s) (oper16 o s) ∧
      Kept s (load16 d o s) d.halves [] [.N, .Z, .V] [] ∧ Falls s (load16 d o s) := by
  refine ⟨by simp [load16, State.setDbl_dbl], State.setNZ0_logic _ _, ?_,
    (s.setDbl_falls _ _).trans (State.ccr_falls _ _)⟩
  exact ((s.setDbl_kept _ _).mono (by simp) (by simp) (by simp) (by simp)).trans
    ((State.setNZ0_kept _ _).mono (by simp) (by simp) (by simp) (by simp))

theorem store16_spec {s : State} (h : s.Inv) (m : MemOp) (v : Word) :
    Stored s (store16 m v s) (ea m s) (hiByte v) ∧ Stored s (store16 m v s) (ea m s + 1) (loByte v) ∧
      LogicFlags (store16 m v s) v ∧
      Kept s (store16 m v s) [] [] [.N, .Z, .V] (wordAt (ea m s)) ∧ Falls s (store16 m v s) := by
  refine ⟨(State.write16_hi h (ea m s) v).of_mem rfl, (State.write16_lo h (ea m s) v).of_mem rfl,
    State.setNZ0_logic _ _, ?_, (s.write16_falls _ _).trans (State.ccr_falls _ _)⟩
  · exact ((s.write16_kept _ _).mono (by simp) (by simp) (by simp) (fun _ h => h)).trans
      ((State.setNZ0_kept _ _).mono (by simp) (by simp) (by simp) (by simp))

theorem compare16_spec (p q : Word) (s : State) :
    SubFlags (compare16 p q s) p q (p - q) false ∧ Kept s (compare16 p q s) [] [] [.N, .Z, .V, .C] [] ∧
      Falls s (compare16 p q s) := by
  refine ⟨?_, State.setAlu_kept _ _, State.ccr_falls _ _⟩
  have hv : (subAlu p q false).value = p - q := by simp [subAlu]
  rw [← hv]
  exact State.setAlu_sub _ _ _ _

theorem exchangeDE_spec (s : State) :
    (exchangeDE s).dbl .D = s.dbl .E ∧ (exchangeDE s).dbl .E = s.dbl .D ∧
      LogicFlags (exchangeDE s) (xgdeFlags s.cfg.xgdeFlagsFrom (s.dbl .E) (s.dbl .D)) ∧
      Kept s (exchangeDE s) [.A, .B, .H, .L] [] [.N, .Z, .V] [] ∧ Falls s (exchangeDE s) := by
  refine ⟨by simp [exchangeDE, State.setDbl_dbl], by simp [exchangeDE, State.setDbl_dbl], State.setNZ0_logic _ _, ?_,
    ((s.setDbl_falls _ _).trans (State.setDbl_falls _ _ _)).trans (State.ccr_falls _ _)⟩
  exact (((s.setDbl_kept .D _).mono (by simp [Dbl.halves]) (by simp) (by simp) (by simp)).trans
    ((State.setDbl_kept _ .E _).mono (by simp [Dbl.halves]) (by simp) (by simp) (by simp))).trans
    ((State.setNZ0_kept _ _).mono (by simp) (by simp) (by simp) (by simp))

theorem add16To_spec (d : Dbl) (q : Word) (s : State) :
    (add16To d q s).dbl d = s.dbl d + q ∧ AddFlags (add16To d q s) (s.dbl d) q (s.dbl d + q) false ∧
      Kept s (add16To d q s) d.halves [] [.N, .Z, .V, .C] [] ∧ Falls s (add16To d q s) := by
  have hv : (addAlu (s.dbl d) q false).value = s.dbl d + q := by simp [addAlu_value]
  refine ⟨by simp [add16To, State.setDbl_dbl, hv], ?_, ?_, (s.setDbl_falls _ _).trans (State.ccr_falls _ _)⟩
  · rw [← hv]
    exact State.setAlu_add _ _ _ _
  · exact ((s.setDbl_kept _ _).mono (by simp) (by simp) (by simp) (by simp)).trans
      ((State.setAlu_kept _ _).mono (by simp) (by simp) (by simp) (by simp))

theorem sub16From_spec (d : Dbl) (q : Word) (s : State) :
    (sub16From d q s).dbl d = s.dbl d - q ∧ SubFlags (sub16From d q s) (s.dbl d) q (s.dbl d - q) false ∧
      Kept s (sub16From d q s) d.halves [] [.N, .Z, .V, .C] [] ∧ Falls s (sub16From d q s) := by
  have hv : (subAlu (s.dbl d) q false).value = s.dbl d - q := by simp [subAlu]
  refine ⟨by simp [sub16From, State.setDbl_dbl, hv], ?_, ?_, (s.setDbl_falls _ _).trans (State.ccr_falls _ _)⟩
  · rw [← hv]
    exact State.setAlu_sub _ _ _ _
  · exact ((s.setDbl_kept _ _).mono (by simp) (by simp) (by simp) (by simp)).trans
      ((State.setAlu_kept _ _).mono (by simp) (by simp) (by simp) (by simp))

/-- MED, with C the free value. -/
theorem multiply16_spec (s : State) :
    (multiply16 s).dbl .D = s.dbl .D * s.dbl .E ∧ Kept s (multiply16 s) [.A, .B] [] [.C] [] ∧
      Falls s (multiply16 s) := by
  refine ⟨by simp [multiply16, State.setDbl_dbl], ?_, (s.setDbl_falls _ _).trans (State.ccr_falls _ _)⟩
  exact ((s.setDbl_kept .D _).mono (by simp [Dbl.halves]) (by simp) (by simp) (by simp)).trans
    ((State.setFlag_kept _ _ _).mono (by simp) (by simp) (by simp) (by simp))

theorem shift16_spec (d : Dbl) (f : Word → Alu 16) (s : State) :
    (shift16 d f s).dbl d = (f (s.dbl d)).value ∧ (shift16 d f s).NZof (f (s.dbl d)).value ∧
      (shift16 d f s).flag .V = (f (s.dbl d)).overflow ∧ (shift16 d f s).flag .C = (f (s.dbl d)).carry ∧
      Kept s (shift16 d f s) d.halves [] [.N, .Z, .V, .C] [] ∧ Falls s (shift16 d f s) := by
  refine ⟨by simp [shift16, State.setDbl_dbl], ⟨State.setAlu_flag _ _ .N, State.setAlu_flag _ _ .Z⟩,
    State.setAlu_flag _ _ .V, State.setAlu_flag _ _ .C, ?_, (s.setDbl_falls _ _).trans (State.ccr_falls _ _)⟩
  exact ((s.setDbl_kept _ _).mono (by simp) (by simp) (by simp) (by simp)).trans
    ((State.setAlu_kept _ _).mono (by simp) (by simp) (by simp) (by simp))

/-! ## Pointers and the stack pointer -/

theorem loadIndex_spec (r : IReg) (o : Src16) (s : State) :
    (loadIndex r o s).ireg r = oper16 o s ∧ LogicFlags (loadIndex r o s) (oper16 o s) ∧
      Kept s (loadIndex r o s) [] [r] [.N, .Z, .V] [] ∧ Falls s (loadIndex r o s) := by
  refine ⟨by simp [loadIndex], State.setNZ0_logic _ _, ?_, (s.setIreg_falls _ _).trans (State.ccr_falls _ _)⟩
  exact ((s.setIreg_kept _ _).mono (by simp) (by simp) (by simp) (by simp)).trans
    ((State.setNZ0_kept _ _).mono (by simp) (by simp) (by simp) (by simp))

theorem loadStack_spec (o : Src16) (s : State) :
    (loadStack o s).sp = oper16 o s ∧ LogicFlags (loadStack o s) (oper16 o s) ∧ (loadStack o s).pc = s.pc ∧
      Kept s (loadStack o s) [] [] [.N, .Z, .V] [] ∧ SameControl s (loadStack o s) := by
  refine ⟨rfl, State.setNZ0_logic _ _, rfl, ?_, ⟨⟨rfl, rfl, rfl, rfl⟩, rfl⟩⟩
  have k := State.setNZ0_kept { s with sp := oper16 o s } (oper16 o s)
  refine ⟨fun a ha => ?_, fun r hr => ?_, k.flags, k.bytes, rfl⟩
  · rw [show (loadStack o s).acc a = _ from k.accs a ha]
    cases a <;> rfl
  · rw [show (loadStack o s).ireg r = _ from k.iregs r hr]
    cases r <;> rfl

theorem pullIndex_spec (r : IReg) (s : State) :
    (pullIndex r s).ireg r = join (s.read8 (s.sp + 1)) (s.read8 (s.sp + 2)) ∧ (pullIndex r s).sp = s.sp + 2 ∧
      (pullIndex r s).pc = s.pc ∧ Kept s (pullIndex r s) [] [r] [] [] ∧ SameControl s (pullIndex r s) := by
  refine ⟨?_, by simp [pullIndex, State.dropped], by simp [pullIndex], ?_, ?_⟩
  · simp [pullIndex, State.pulled16, State.pulled]
  · constructor <;> simp +contextual [pullIndex]
  · refine ⟨⟨?_, ?_, ?_, ?_⟩, ?_⟩ <;> simp [pullIndex]

theorem exchangeIndex_spec (d : Dbl) (r : IReg) (s : State) :
    (exchangeIndex d r s).dbl d = s.ireg r ∧ (exchangeIndex d r s).ireg r = s.dbl d ∧
      Kept s (exchangeIndex d r s) d.halves [r] [] [] ∧ Falls s (exchangeIndex d r s) := by
  refine ⟨by simp [exchangeIndex, State.setDbl_dbl], by simp [exchangeIndex], ?_,
    (s.setDbl_falls _ _).trans (State.setIreg_falls _ _ _)⟩
  exact ((s.setDbl_kept _ _).mono (by simp) (by simp) (by simp) (by simp)).trans
    ((State.setIreg_kept _ _ _).mono (by simp) (by simp) (by simp) (by simp))

theorem countIndex_spec (r : IReg) (v : Word) (s : State) :
    (countIndex r v s).ireg r = v ∧ (countIndex r v s).flag .Z = decide (v = 0) ∧
      Kept s (countIndex r v s) [] [r] [.Z] [] ∧ Falls s (countIndex r v s) := by
  refine ⟨by simp [countIndex], by simp [countIndex], ?_, (s.setIreg_falls _ _).trans (State.ccr_falls _ _)⟩
  exact ((s.setIreg_kept _ _).mono (by simp) (by simp) (by simp) (by simp)).trans
    ((State.setFlag_kept _ _ _).mono (by simp) (by simp) (by simp) (by simp))

theorem setIreg_spec (r : IReg) (v : Word) (s : State) :
    (s.setIreg r v).ireg r = v ∧ Kept s (s.setIreg r v) [] [r] [] [] ∧ Falls s (s.setIreg r v) :=
  ⟨by simp, s.setIreg_kept r v, s.setIreg_falls r v⟩

/-- Writing S alone. -/
theorem setSp_spec (v : Word) (s : State) :
    Kept s { s with sp := v } [] [] [] [] ∧ SameControl s { s with sp := v } := by
  refine ⟨⟨fun a _ => ?_, fun r _ => ?_, fun _ _ => rfl, fun _ _ => rfl, rfl⟩, ⟨rfl, rfl, rfl, rfl⟩, rfl⟩
  · cases a <;> rfl
  · cases r <;> rfl

/-! ## Control flow -/

/-- Writing PC alone. -/
theorem setPc_spec (v : Word) (s : State) :
    Kept s { s with pc := v } [] [] [] [] ∧ SameControl s { s with pc := v } := by
  refine ⟨⟨fun a _ => ?_, fun r _ => ?_, fun _ _ => rfl, fun _ _ => rfl, rfl⟩, ⟨rfl, rfl, rfl, rfl⟩, rfl⟩
  · cases a <;> rfl
  · cases r <;> rfl

theorem call_spec {s : State} (h : s.Inv) (t : Word) :
    (call t s).pc = t ∧ Stored s (call t s) s.sp (loByte s.pc) ∧ Stored s (call t s) (s.sp - 1) (hiByte s.pc) ∧
      (call t s).sp = s.sp - 2 ∧ Kept s (call t s) [] [] [] [s.sp, s.sp - 1] ∧ SameControl s (call t s) := by
  obtain ⟨h0, h1, hs, _, hk, hc⟩ := State.push16_spec h s.pc
  refine ⟨rfl, h0, h1, hs, ?_, hc.trans ⟨⟨rfl, rfl, rfl, rfl⟩, rfl⟩⟩
  exact hk.trans ((setPc_spec t (s.push16 s.pc)).1.mono (by simp) (by simp) (by simp) (by simp))

theorem returnFromCall_spec (s : State) :
    (returnFromCall s).pc = join (s.read8 (s.sp + 1)) (s.read8 (s.sp + 2)) ∧ (returnFromCall s).sp = s.sp + 2 ∧
      Kept s (returnFromCall s) [] [] [] [] ∧ SameControl s (returnFromCall s) := by
  refine ⟨?_, rfl, ⟨fun a _ => ?_, fun r _ => ?_, fun _ _ => rfl, fun _ _ => rfl, rfl⟩, ⟨rfl, rfl, rfl, rfl⟩, rfl⟩
  · have e : s.sp + 1 + 1 = s.sp + 2 := by bv_omega
    simp [returnFromCall, State.pulled16, State.pulled]
  · cases a <;> rfl
  · cases r <;> rfl

/-- Returning to an address that a call stacked (R243). -/
theorem returnFromCall_stacked {s t : State} {ret : Word} (h0 : t.read8 s.sp = loByte ret)
    (h1 : t.read8 (s.sp - 1) = hiByte ret) (hs : t.sp = s.sp - 2) :
    returnFromCall t = { t with pc := ret, sp := s.sp } := by
  have e1 : t.sp + 1 = s.sp - 1 := by
    rw [hs]
    bv_omega
  have e2 : t.sp + (1 + 1) = s.sp := by
    rw [hs]
    bv_omega
  have hp : t.pulled16 1 = ret := by
    rw [State.pulled16, State.pulled, State.pulled, e1, e2, h0, h1, join_hiByte_loByte]
  have hq : t.sp + 2 = s.sp := e2
  simp only [returnFromCall, hp, hq]

theorem branchIf_spec (cond : Bool) (off : Byte) (s : State) :
    (branchIf cond off s).pc = (if cond then target off s else s.pc) ∧ (branchIf cond off s).sp = s.sp ∧
      Kept s (branchIf cond off s) [] [] [] [] ∧ SameControl s (branchIf cond off s) := by
  cases cond
  · exact ⟨rfl, rfl, Kept.rfl, SameControl.rfl⟩
  · exact ⟨rfl, rfl, setPc_spec _ s⟩

/-! ## Processor control -/

theorem waitForInterrupt_spec {s : State} (h : s.Inv) :
    FrameStored s (waitForInterrupt s) s.pc ∧ (waitForInterrupt s).run = .waiting ∧
      (waitForInterrupt s).sp = s.sp - 13 ∧ (waitForInterrupt s).pc = s.pc ∧
      Kept s (waitForInterrupt s) [] [] [] (frameAddrs s.sp) ∧ SameModel s (waitForInterrupt s) := by
  obtain ⟨hf, hs, hp, hk, hc⟩ := State.pushFrame_spec h s.pc
  refine ⟨hf, rfl, hs, hp, ⟨fun a ha => ?_, fun r hr => ?_, hk.flags, hk.bytes, rfl⟩, ⟨rfl, rfl, rfl, rfl⟩⟩
  · rw [← hk.accs a ha]
    cases a <;> rfl
  · rw [← hk.iregs r hr]
    cases r <;> rfl

/-- Returning to a frame that an acknowledge phase stacked in RAM (R311, R312). -/
theorem returnFromInterrupt_frame {s t : State} {ret : Word} (hf : FrameStored s t ret) (hc : t.cfg = s.cfg)
    (hw : ∀ p ∈ frameAddrs s.sp, s.writable p = true) (hs : t.sp = s.sp - 13) :
    t.returnFromInterrupt =
      { s with
        pc := ret, mem := t.mem, run := t.run, inputs := t.inputs, draws := t.draws, opcodeAt := t.opcodeAt
        operandAt := t.operandAt } := by
  have rd (p : Word) (v : Byte) (h : Stored s t p v) (hp : p ∈ frameAddrs s.sp) : t.read8 p = v :=
    h.read8 hc (hw p hp)
  obtain ⟨h0, h1, h2, h3, h4, h5, h6, h7, h8, h9, h10, h11, h12⟩ := hf
  replace h0 := rd _ _ h0 (by simp [frameAddrs])
  replace h1 := rd _ _ h1 (by simp [frameAddrs])
  replace h2 := rd _ _ h2 (by simp [frameAddrs])
  replace h3 := rd _ _ h3 (by simp [frameAddrs])
  replace h4 := rd _ _ h4 (by simp [frameAddrs])
  replace h5 := rd _ _ h5 (by simp [frameAddrs])
  replace h6 := rd _ _ h6 (by simp [frameAddrs])
  replace h7 := rd _ _ h7 (by simp [frameAddrs])
  replace h8 := rd _ _ h8 (by simp [frameAddrs])
  replace h9 := rd _ _ h9 (by simp [frameAddrs])
  replace h10 := rd _ _ h10 (by simp [frameAddrs])
  replace h11 := rd _ _ h11 (by simp [frameAddrs])
  replace h12 := rd _ _ h12 (by simp [frameAddrs])
  have key (n k : Word) (e : n + k = 13) (v : Byte) (h : t.read8 (s.sp - k) = v) : t.pulled n = v := by
    rw [State.pulled, hs, ← h]
    congr 1
    bv_omega
  have k1 := key 1 12 rfl _ h12
  have k2 := key 2 11 rfl _ h11
  have k3 := key 3 10 rfl _ h10
  have k4 := key 4 9 rfl _ h9
  have k5 := key 5 8 rfl _ h8
  have k6 := key 6 7 rfl _ h7
  have k7 := key 7 6 rfl _ h6
  have k8 := key 8 5 rfl _ h5
  have k9 := key 9 4 rfl _ h4
  have k10 := key 10 3 rfl _ h3
  have k11 := key 11 2 rfl _ h2
  have k12 := key 12 1 rfl _ h1
  have k13 := key 13 0 rfl (loByte s.z) (by rw [show s.sp - 0 = s.sp from BitVec.sub_zero _]; exact h0)
  have e (v w : Byte) (x n : Word) (h : t.pulled n = v) (h' : t.pulled (n + 1) = w) (hv : v = hiByte x)
      (hw : w = loByte x) : t.pulled16 n = x := by
    rw [State.pulled16, h, h', hv, hw, join_hiByte_loByte]
  have x4 := e _ _ s.x 4 k4 k5 rfl rfl
  have x6 := e _ _ s.y 6 k6 k7 rfl rfl
  have x8 := e _ _ ret 8 k8 k9 rfl rfl
  have x12 := e _ _ s.z 12 k12 k13 rfl rfl
  have hsp : t.sp + 13 = s.sp := by
    rw [hs]
    bv_omega
  simp only [State.returnFromInterrupt, k1, k2, k3, k10, k11, x4, x6, x8, x12, hsp, hc]

end Sys2Proof.Machine
end

