-- ==== Sys2Proof/Laws/Keep.lean ====
section
/-! SUPPORT. What every shared operation keeps, the canonical form of memory, the configuration and what is not RAM, and the flags
kept by the operations that write few. -/

namespace Sys2Proof.Machine

/-- Nothing is listed at reset (R30). -/
@[simp] theorem State.reset_mem : State.reset.mem = [] := rfl

/-! ## What every step leaves -/

/-- From `s` to `t`: the canonical form of memory, the configuration, and the bytes that are not RAM are kept (R48; D7). -/
structure Steady (s t : State) : Prop where
  inv : s.Inv → t.Inv
  cfg : t.cfg = s.cfg
  fixed : ∀ p, s.writable p = false → t.mem.read p = s.mem.read p

theorem Steady.trans {s t u : State} (h : Steady s t) (k : Steady t u) : Steady s u :=
  ⟨k.inv ∘ h.inv, k.cfg.trans h.cfg, fun p hp =>
    (k.fixed p (by rwa [State.writable, h.cfg])).trans (h.fixed p hp)⟩

/-- Memory and configuration as they were. -/
theorem Steady.of_mem {s t : State} (e : t.mem = s.mem) (c : t.cfg = s.cfg) : Steady s t :=
  ⟨fun h => by rw [State.Inv, e]; exact h, c, fun p _ => by rw [e]⟩

theorem Steady.rfl {s : State} : Steady s s := .of_mem (Eq.refl _) (Eq.refl _)

/-- The half-carry left free keeps it all. -/
theorem Steady.freeHalf {s t : State} (h : Steady s t) (w : Config.HWriter) : Steady s (t.freeHalf w) :=
  h.trans (.of_mem (by simp) (by simp))

/-! ## The operations that leave memory -/

theorem load8_steady (a : Acc) (o : Src8) (s : State) : Steady s (load8 a o s) :=
  .of_mem (by simp [load8]) (by simp [load8])

theorem transfer8_steady (d a : Acc) (s : State) : Steady s (transfer8 d a s) :=
  .of_mem (by simp [transfer8]) (by simp [transfer8])

theorem pull8To_steady (a : Acc) (s : State) : Steady s (pull8To a s) :=
  .of_mem (by simp [pull8To]) (by simp [pull8To])

theorem add8To_steady (w : Config.HWriter) (a : Acc) (q : Byte) (c : Bool) (s : State) : Steady s (add8To w a q c s) :=
  .of_mem (by simp [add8To]) (by simp [add8To])

theorem sub8From_steady (a : Acc) (q : Byte) (c : Bool) (s : State) : Steady s (sub8From a q c s) :=
  .of_mem (by simp [sub8From]) (by simp [sub8From])

theorem compare8_steady (a : Acc) (q : Byte) (s : State) : Steady s (compare8 a q s) :=
  .of_mem (by simp [compare8]) (by simp [compare8])

theorem logic8To_steady (a : Acc) (r : Byte) (s : State) : Steady s (logic8To a r s) :=
  .of_mem (by simp [logic8To]) (by simp [logic8To])

theorem signExtend_steady (d : Dbl) (v : Byte) (s : State) : Steady s (signExtend d v s) :=
  .of_mem (by simp [signExtend]) (by simp [signExtend])

theorem multiply8_steady (s : State) : Steady s (multiply8 s) :=
  .of_mem (by simp [multiply8]) (by simp [multiply8])

theorem decimalAdjust_steady (s : State) : Steady s (decimalAdjust s) :=
  .of_mem (by simp [decimalAdjust]) (by simp [decimalAdjust])

theorem test8_steady (t : Target8) (s : State) : Steady s (test8 t s) :=
  .of_mem (by simp [test8]) (by simp [test8])

theorem load16_steady (d : Dbl) (o : Src16) (s : State) : Steady s (load16 d o s) :=
  .of_mem (by simp [load16]) (by simp [load16])

theorem compare16_steady (p q : Word) (s : State) : Steady s (compare16 p q s) :=
  .of_mem (by simp [compare16]) (by simp [compare16])

theorem exchangeDE_steady (s : State) : Steady s (exchangeDE s) :=
  .of_mem (by simp [exchangeDE]) (by simp [exchangeDE])

theorem add16To_steady (d : Dbl) (q : Word) (s : State) : Steady s (add16To d q s) :=
  .of_mem (by simp [add16To]) (by simp [add16To])

theorem sub16From_steady (d : Dbl) (q : Word) (s : State) : Steady s (sub16From d q s) :=
  .of_mem (by simp [sub16From]) (by simp [sub16From])

theorem multiply16_steady (s : State) : Steady s (multiply16 s) :=
  .of_mem (by simp [multiply16]) (by simp [multiply16])

theorem shift16_steady (d : Dbl) (f : Word → Alu 16) (s : State) : Steady s (shift16 d f s) :=
  .of_mem (by simp [shift16]) (by simp [shift16])

theorem loadIndex_steady (r : IReg) (o : Src16) (s : State) : Steady s (loadIndex r o s) :=
  .of_mem (by simp [loadIndex]) (by simp [loadIndex])

theorem loadStack_steady (o : Src16) (s : State) : Steady s (loadStack o s) :=
  .of_mem rfl rfl

theorem pullIndex_steady (r : IReg) (s : State) : Steady s (pullIndex r s) :=
  .of_mem (by simp [pullIndex]) (by simp [pullIndex])

theorem exchangeIndex_steady (d : Dbl) (r : IReg) (s : State) : Steady s (exchangeIndex d r s) :=
  .of_mem (by simp [exchangeIndex]) (by simp [exchangeIndex])

theorem countIndex_steady (r : IReg) (v : Word) (s : State) : Steady s (countIndex r v s) :=
  .of_mem (by simp [countIndex]) (by simp [countIndex])

theorem returnFromCall_steady (s : State) : Steady s (returnFromCall s) :=
  .of_mem rfl rfl

theorem branchIf_steady (c : Bool) (off : Byte) (s : State) : Steady s (branchIf c off s) :=
  by cases c <;> exact .of_mem rfl rfl

theorem returnFromInterrupt_steady (s : State) : Steady s (s.returnFromInterrupt) :=
  .of_mem rfl rfl

theorem stop_steady (s : State) : Steady s (stop s) :=
  by unfold stop; split <;> exact .of_mem rfl rfl

theorem resetSequence_steady (s : State) : Steady s (s.resetSequence) :=
  .of_mem rfl rfl

/-! ## The operations that store -/

theorem write8_steady (p : Word) (v : Byte) (s : State) : Steady s (s.write8 p v) :=
  ⟨Memory.store_wf, rfl, fun _ hp => Memory.read_store_fixed (of_decide_eq_false hp)⟩

theorem write16_steady (p v : Word) (s : State) : Steady s (s.write16 p v) :=
  (write8_steady p (hiByte v) s).trans (write8_steady (p + 1) (loByte v) (s.write8 p (hiByte v)))

theorem push_steady (bs : List Byte) (s : State) : Steady s (s.push bs) :=
  ⟨Memory.pushAll_wf, rfl, fun _ hp => Memory.read_pushAll_fixed (of_decide_eq_false hp)⟩

theorem push8_steady (v : Byte) (s : State) : Steady s (s.push8 v) := push_steady _ s

theorem push16_steady (v : Word) (s : State) : Steady s (s.push16 v) := push_steady _ s

theorem store8_steady (a : Acc) (m : MemOp) (s : State) : Steady s (store8 a m s) :=
  (write8_steady (ea m s) (s.acc a) s).trans (.of_mem (by simp [store8]) (by simp [store8]))

theorem store16_steady (m : MemOp) (v : Word) (s : State) : Steady s (store16 m v s) :=
  (write16_steady (ea m s) v s).trans (.of_mem (by simp [store16]) (by simp [store16]))

theorem writeTarget_steady (t : Target8) (v : Byte) (s : State) : Steady s (writeTarget t v s) := by
  cases t with
  | acc a => exact .of_mem (by simp [writeTarget]) (by simp [writeTarget])
  | mem m => exact write8_steady _ v s

theorem modify8_nzv_steady (t : Target8) (f : Byte → Alu 8) (s : State) : Steady s (modify8 t f State.setNZVof s) :=
  (writeTarget_steady t (f (readTarget t s)).value s).trans (.of_mem rfl rfl)

theorem modify8_nzvc_steady (t : Target8) (f : Byte → Alu 8) (s : State) : Steady s (modify8 t f State.setAlu s) :=
  (writeTarget_steady t (f (readTarget t s)).value s).trans (.of_mem rfl rfl)

theorem clear8_steady (t : Target8) (s : State) : Steady s (clear8 t s) :=
  (writeTarget_steady t 0x00#8 s).trans (.of_mem rfl rfl)

theorem changeBits_steady (m : MemOp) (f : Byte → Byte) (s : State) : Steady s (changeBits m f s) :=
  (write8_steady (ea m s) (f (s.read8 (ea m s))) s).trans (.of_mem rfl rfl)

theorem call_steady (t : Word) (s : State) : Steady s (call t s) :=
  (push16_steady s.pc s).trans (.of_mem rfl rfl)

theorem enterAt_steady (vec : Word) (s : State) : Steady s (s.enterAt vec) := .of_mem rfl rfl

theorem interruptEntry_steady (ret vec : Word) (s : State) : Steady s (s.interruptEntry ret vec) :=
  (push_steady (s.frameBytes ret) s).trans (enterAt_steady vec _)

theorem emulationTrap_steady (s : State) : Steady s (emulationTrap s) := interruptEntry_steady _ _ s

theorem waitForInterrupt_steady (s : State) : Steady s (waitForInterrupt s) :=
  (push_steady (s.frameBytes s.pc) s).trans (.of_mem rfl rfl)

/-! ## Flags kept by the operations that write no, or few, flags -/

@[simp] theorem writeTarget_cfg (t : Target8) (v : Byte) (s : State) : (writeTarget t v s).cfg = s.cfg :=
  (writeTarget_steady t v s).cfg

@[simp] theorem writeTarget_flag (t : Target8) (v : Byte) (s : State) (f : Flag) :
    (writeTarget t v s).flag f = s.flag f := by
  cases t with
  | acc a => cases a <;> rfl
  | mem m => rfl

@[simp] theorem branchIf_flag (c : Bool) (off : Byte) (s : State) (f : Flag) : (branchIf c off s).flag f = s.flag f := by
  cases c <;> rfl

@[simp] theorem stop_flag (s : State) (f : Flag) : (stop s).flag f = s.flag f := by
  unfold stop
  split <;> rfl

@[simp] theorem call_flag (t : Word) (s : State) (f : Flag) : (call t s).flag f = s.flag f := rfl

@[simp] theorem returnFromCall_flag (s : State) (f : Flag) : (returnFromCall s).flag f = s.flag f := rfl

@[simp] theorem waitForInterrupt_flag (s : State) (f : Flag) : (waitForInterrupt s).flag f = s.flag f := rfl

@[simp] theorem setPc_flag (s : State) (v : Word) (f : Flag) : ({ s with pc := v } : State).flag f = s.flag f := rfl

@[simp] theorem setSp_flag (s : State) (v : Word) (f : Flag) : ({ s with sp := v } : State).flag f = s.flag f := rfl

@[simp] theorem setA_flag (s : State) (v : Byte) (f : Flag) : ({ s with a := v } : State).flag f = s.flag f := rfl

theorem loadStack_flag (o : Src16) (s : State) (f : Flag) :
    (loadStack o s).flag f =
      if f = .N then (oper16 o s).msb else if f = .Z then decide (oper16 o s = 0) else if f = .V then false
      else s.flag f :=
  State.setNZ0_flag _ _ f

theorem interruptEntry_flag (s : State) (ret vec : Word) (f : Flag) :
    (s.interruptEntry ret vec).flag f = if f = .I then true else s.flag f :=
  State.enterAt_flag _ vec f

theorem emulationTrap_flag (s : State) (f : Flag) : (emulationTrap s).flag f = if f = .I then true else s.flag f :=
  interruptEntry_flag s _ _ f

/-- Every flag is set by the reset sequence (R341). -/
theorem resetSequence_flag (s : State) (f : Flag) : s.resetSequence.flag f = true := by
  have h : ccrBit 0xFF#8 f = true := by cases f <;> decide
  exact h

end Sys2Proof.Machine
end

