-- ==== Sys2Proof/Laws/OpenCodes.lean ====
section
/-! SUPPORT. The codes of the decoder as one code table, the known and the open ones: what a form is, that a code belongs to one form and
a form to one code, and that no code begins with another (R70, R71, R81). -/

namespace Sys2Proof

/-! ## Forms -/

@[simp] theorem MemOp.fill_fill (m : MemOp) (f g : Nat → Byte) : (m.fill f).fill g = m.fill g := by cases m <;> rfl

@[simp] theorem Src8.fill_fill (o : Src8) (f g : Nat → Byte) : (o.fill f).fill g = o.fill g := by
  cases o with
  | imm v => rfl
  | mem m => exact congrArg Src8.mem (m.fill_fill f g)

@[simp] theorem Src16.fill_fill (o : Src16) (f g : Nat → Byte) : (o.fill f).fill g = o.fill g := by
  cases o with
  | imm v => rfl
  | mem m => exact congrArg Src16.mem (m.fill_fill f g)

@[simp] theorem Src8.fill_len (o : Src8) (f : Nat → Byte) : (o.fill f).len = o.len := by
  cases o with
  | imm v => rfl
  | mem m => exact m.fill_len f

@[simp] theorem Src16.fill_len (o : Src16) (f : Nat → Byte) : (o.fill f).len = o.len := by
  cases o with
  | imm v => rfl
  | mem m => exact m.fill_len f

/-- Filling in the operand values forgets the ones before. -/
theorem Instr.fill_fill (i : Instr) (f g : Nat → Byte) : (i.fill f).fill g = i.fill g := by
  cases i <;> simp [Instr.fill]

/-- The code, the operand length and the well-formedness are those of the form. -/
theorem Instr.opcodeBytes_fill (i : Instr) (f : Nat → Byte) : (i.fill f).opcodeBytes = i.opcodeBytes := by
  cases i <;> simp [Instr.fill, Instr.opcodeBytes]

theorem Instr.operandLen_fill (i : Instr) (f : Nat → Byte) : (i.fill f).operandLen = i.operandLen := by
  cases i <;> simp [Instr.fill, Instr.operandLen]

theorem Instr.wellFormed_fill (i : Instr) (f : Nat → Byte) : (i.fill f).wellFormed = i.wellFormed := by
  cases i <;> simp [Instr.fill, Instr.wellFormed]

theorem Instr.form_fill (i : Instr) (f : Nat → Byte) : (i.fill f).form = i.form := i.fill_fill f _

theorem Instr.fill_form (i : Instr) (f : Nat → Byte) : i.form.fill f = i.fill f := i.fill_fill _ f

/-- The operand bytes of a filled form are those it was filled from (R72). -/
theorem Instr.operandBytes_fill (i : Instr) (f : Nat → Byte) : StartsWith f (i.fill f).operandBytes := by
  cases i <;>
    first
    | exact startsWith_nil _
    | exact Src8.bytes_fill _ _
    | exact Src16.bytes_fill _ _
    | exact MemOp.bytes_fill _ _
    | (simp [Instr.fill, Instr.operandBytes, startsWith_append, startsWith_cons, startsWith_nil, MemOp.bytes_fill,
        MemOp.bytes_length])

/-! ## Lists of bytes -/

theorem beginsWith_iff {bs : List Byte} {rd : Nat → Byte} : beginsWith bs rd = true ↔ StartsWith rd bs := by
  induction bs generalizing rd with
  | nil => exact ⟨fun _ => startsWith_nil rd, fun _ => rfl⟩
  | cons b bs ih => simp [beginsWith, startsWith_cons, ih]

/-- Of two opcodes that the same bytes begin with, one begins with the other. -/
theorem overlap_of_startsWith {bs cs : List Byte} {rd : Nat → Byte} (h : StartsWith rd bs) (k : StartsWith rd cs) :
    overlap bs cs = true := by
  induction bs generalizing rd cs with
  | nil => cases cs <;> rfl
  | cons b bs ih =>
    cases cs with
    | nil => rfl
    | cons c cs =>
      rw [startsWith_cons] at h k
      simp [overlap, ← h.1, ← k.1, ih h.2 k.2]

/-! ## Known codes -/

/-- A known code is the code of the form it selects, which is a form of Table 1 (R87, R91 to R95). -/
theorem knownCode_spec {rd : Nat → Byte} {t : Instr} {n : Nat} (h : knownCode rd = some (t, n)) :
    ∃ c, t.opcodeBytes = some c ∧ c.length = n ∧ 1 ≤ n ∧ StartsWith rd c ∧ t.wellFormed = true := by
  unfold knownCode at h
  split at h
  · rename_i h0
    simp only [Option.map_eq_some_iff, Prod.mk.injEq] at h
    obtain ⟨t', h, rfl, rfl⟩ := h
    obtain ⟨h1, h2⟩ := page18_code _ (onPage_mem h)
    exact ⟨_, h1, rfl, by decide, by simp [startsWith_cons, startsWith_nil, h0], h2⟩
  split at h
  · rename_i h0
    simp only [Option.map_eq_some_iff, Prod.mk.injEq] at h
    obtain ⟨t', h, rfl, rfl⟩ := h
    obtain ⟨h1, h2⟩ := page1A_code _ (onPage_mem h)
    exact ⟨_, h1, rfl, by decide, by simp [startsWith_cons, startsWith_nil, h0], h2⟩
  split at h
  · rename_i h0
    simp only [Option.map_eq_some_iff, Prod.mk.injEq] at h
    obtain ⟨t', h, rfl, rfl⟩ := h
    obtain ⟨h1, h2⟩ := pageCD_code _ (onPage_mem h)
    exact ⟨_, h1, rfl, by decide, by simp [startsWith_cons, startsWith_nil, h0], h2⟩
  · simp only [Option.map_eq_some_iff, Prod.mk.injEq] at h
    obtain ⟨t', h, rfl, rfl⟩ := h
    obtain ⟨h1, h2⟩ := oneByteCode_code _ _ h
    exact ⟨_, h1, rfl, by decide, by simp [startsWith_cons, startsWith_nil], h2⟩

/-- A free opcode is no known code and none of the dropped ones, whatever follows it. -/
theorem freeOpcode_spec {c : List Byte} {rd : Nat → Byte} (h : freeOpcode c = true) (hs : StartsWith rd c) :
    knownCode rd = none ∧ droppedCode (rd 0) = false ∧ 1 ≤ c.length := by
  match c with
  | [] => cases h
  | [b] =>
    rw [startsWith_cons] at hs
    simp only [freeOpcode, Bool.and_eq_true, Bool.not_eq_true', decide_eq_true_eq, Option.isNone_iff_eq_none] at h
    obtain ⟨⟨hd, h1, h2, h3⟩, h4⟩ := h
    refine ⟨?_, by rw [hs.1, hd], by simp⟩
    simp [knownCode, hs.1, h1, h2, h3, h4]
  | b :: c :: bs =>
    simp only [startsWith_cons] at hs
    simp only [freeOpcode, Bool.and_eq_true, Bool.not_eq_true', Option.isNone_iff_eq_none] at h
    obtain ⟨⟨hd, h1⟩, -⟩ := h
    refine ⟨?_, by rw [hs.1, hd], by simp⟩
    rw [← h1]
    simp [knownCode, hs.1, hs.2.1]

/-! ## Code tables -/

/-- The open codes are a proper code table of open rows, whatever the parameter is (entry 2). -/
theorem openTable_rows : codeTable openTable = true ∧ openTable.all openRow = true := by
  unfold openTable
  split
  · exact (Bool.and_eq_true _ _).mp ‹_›
  · exact ⟨rfl, rfl⟩

/-- The rows of another `OPC` are a proper code table, whatever they are (R71; entry 1). -/
theorem ownTable_rows (rows : List Config.CodeRow) : codeTable (ownTable rows) = true := by
  unfold ownTable
  split
  · assumption
  · rfl

/-- What a row of a code table is (R70, R71, R87). -/
theorem codeTable_row {T : List Config.CodeRow} {r : Config.CodeRow} (h : codeTable T = true) (hr : r ∈ T) :
    1 ≤ r.1.length ∧ r.2.wellFormed = true ∧ r.2.form = r.2 := by
  induction T with
  | nil => cases hr
  | cons q T ih =>
    simp only [codeTable, codeRow, Bool.and_eq_true, Bool.not_eq_true', List.isEmpty_eq_false_iff, decide_eq_true_eq] at h
    cases hr with
    | head => exact ⟨List.length_pos_iff.mpr h.1.1.1.1, h.1.1.1.2, h.1.1.2⟩
    | tail _ hr => exact ih h.2 hr

/-- An open row has a free opcode, and its form has no known code (R96). -/
theorem openTable_row {r : Config.CodeRow} (hr : r ∈ openTable) :
    freeOpcode r.1 = true ∧ r.2.opcodeBytes = none := by
  simpa [openRow] using List.all_eq_true.mp openTable_rows.2 r hr

/-- The form an opcode at the bytes' start stands for is the one found: no opcode begins with another (R70, R81). -/
theorem findCode_iff {T : List Config.CodeRow} (h : codeTable T = true) {rd : Nat → Byte} {t : Instr} {n : Nat} :
    findCode T rd = some (t, n) ↔ ∃ c, (c, t) ∈ T ∧ c.length = n ∧ StartsWith rd c := by
  induction T with
  | nil => simp [findCode]
  | cons q T ih =>
    obtain ⟨c, u⟩ := q
    simp only [codeTable, Bool.and_eq_true, List.all_eq_true] at h
    unfold findCode
    split
    · rename_i hc
      rw [beginsWith_iff] at hc
      constructor
      · intro e
        cases e
        exact ⟨c, List.mem_cons_self, rfl, hc⟩
      · rintro ⟨d, hd, rfl, hs⟩
        cases hd with
        | head => rfl
        | tail _ hd =>
          have := h.1.2 _ hd
          simp [apart, overlap_of_startsWith hc hs] at this
    · rename_i hc
      rw [beginsWith_iff] at hc
      rw [ih h.2]
      constructor
      · rintro ⟨d, hd, hr⟩
        exact ⟨d, List.mem_cons_of_mem _ hd, hr⟩
      · rintro ⟨d, hd, hl, hs⟩
        cases hd with
        | head => exact absurd hs hc
        | tail _ hd => exact ⟨d, hd, hl, hs⟩

/-- The opcode found for a form is its only one (R71). -/
theorem findForm_iff {T : List Config.CodeRow} (h : codeTable T = true) {t : Instr} {c : List Byte} :
    findForm T t = some c ↔ (c, t) ∈ T := by
  induction T with
  | nil => simp [findForm]
  | cons q T ih =>
    obtain ⟨d, u⟩ := q
    simp only [codeTable, Bool.and_eq_true, List.all_eq_true] at h
    unfold findForm
    split
    · rename_i hu
      subst hu
      constructor
      · intro e
        cases e
        exact List.mem_cons_self
      · intro hc
        cases hc with
        | head => rfl
        | tail _ hc =>
          have := h.1.2 _ hc
          simp [apart] at this
    · rename_i hu
      rw [ih h.2]
      refine ⟨List.mem_cons_of_mem _, fun hc => ?_⟩
      cases hc with
      | head => exact absurd rfl hu
      | tail _ hc => exact hc

/-! ## The decoder -/

/-- An opcode that is found is that of its form, which is a form of Table 1 (R70, R71, R87). -/
theorem opcode_code {c : Config.Opc} {rd : Nat → Byte} {t : Instr} {n : Nat} (h : opcode c rd = some (t, n)) :
    ∃ b, t.code c = some b ∧ t.wellFormed = true ∧ 1 ≤ b.length ∧ StartsWith rd b ∧ b.length = n := by
  cases c with
  | m68hc11 =>
    simp only [opcode] at h
    cases hk : knownCode rd with
    | some p =>
      obtain ⟨b, h1, rfl, h3, h4, h5⟩ := knownCode_spec (hk.trans (by simpa [hk] using h))
      exact ⟨b, by simp [Instr.code, h1], h5, h3, h4, rfl⟩
    | none =>
      have hf : findCode openTable rd = some (t, n) := by
        by_cases hd : droppedCode (rd 0) = true <;> simp_all
      obtain ⟨b, h1, rfl, h3⟩ := (findCode_iff openTable_rows.1).mp hf
      obtain ⟨h5, h6, h7⟩ := codeTable_row openTable_rows.1 h1
      refine ⟨b, ?_, h6, h5, h3, rfl⟩
      simp [Instr.code, (openTable_row h1).2, h7, (findForm_iff openTable_rows.1).mpr h1]
  | table rows =>
    obtain ⟨b, h1, rfl, h3⟩ := (findCode_iff (ownTable_rows rows)).mp h
    obtain ⟨h5, h6, h7⟩ := codeTable_row (ownTable_rows rows) h1
    have hf := (findForm_iff (ownTable_rows rows)).mpr h1
    exact ⟨b, by simp [Instr.code, Instr.readAs, h7, hf], h6, h5, h3, rfl⟩

/-- What a byte sequence decodes to: a form with its operands behind the form's opcode, or the verdict unrecognised (R70, R71, R82). -/
theorem decode_cases (c : Config.Opc) (rd : Nat → Byte) :
    (∃ t b, Instr.code c t = some b ∧ t.wellFormed = true ∧ 1 ≤ b.length ∧ StartsWith rd b ∧
      decode c rd = withOperands t b.length rd) ∨ decode c rd = unrecognisedCode rd := by
  cases h : opcode c rd with
  | none => exact .inr (by simp [decode, h])
  | some p =>
    obtain ⟨t, n⟩ := p
    obtain ⟨b, h1, h2, h3, h4, rfl⟩ := opcode_code h
    exact .inl ⟨t, b, h1, h2, h3, h4, by simp [decode, h]⟩

/-- Filling a form with an instruction's operands or those of the instruction itself is one. -/
theorem withOperands_form (i : Instr) (n : Nat) (rd : Nat → Byte) : withOperands i.form n rd = withOperands i n rd := by
  have hl : i.form.operandLen = i.operandLen := i.operandLen_fill _
  simp [withOperands, i.fill_form, hl]

/-- An open code, at the start of the bytes, selects its form (R70, R71). -/
theorem decode_open {i : Instr} {b : List Byte} {rd : Nat → Byte} (hn : i.opcodeBytes = none)
    (hb : i.code .m68hc11 = some b) (hs : StartsWith rd b) : decode .m68hc11 rd = withOperands i b.length rd := by
  have hm : (b, i.form) ∈ openTable := (findForm_iff openTable_rows.1).mp (by simpa [Instr.code, hn] using hb)
  obtain ⟨hk, hd, -⟩ := freeOpcode_spec (openTable_row hm).1 hs
  have hf : findCode openTable rd = some (i.form, b.length) :=
    (findCode_iff openTable_rows.1).mpr ⟨b, hm, rfl, hs⟩
  simp [decode, opcode, hk, hd, hf, withOperands_form]

/-- An opcode of another `OPC`, at the start of the bytes, selects the form it is the code of (R70, R71). -/
theorem decode_own {rows : List Config.CodeRow} {i : Instr} {b : List Byte} {rd : Nat → Byte}
    (hb : i.code (.table rows) = some b) (hs : StartsWith rd b) :
    decode (.table rows) rd = withOperands (i.readAs (.table rows)) b.length rd := by
  have hm := (findForm_iff (ownTable_rows rows)).mp hb
  have hf : opcode (.table rows) rd = some ((i.readAs (.table rows)).form, b.length) :=
    (findCode_iff (ownTable_rows rows)).mpr ⟨b, hm, rfl, hs⟩
  simp only [decode, hf, withOperands_form]

/-- What an instruction's code reads as has the same operand bytes (R90). -/
theorem Instr.operandBytes_readAs (i : Instr) (c : Config.Opc) : (i.readAs c).operandBytes = i.operandBytes := by
  have h : i.canonical.operandBytes = i.operandBytes := by
    unfold Instr.canonical
    split
    · rfl
    · split <;> rfl
  cases c with
  | m68hc11 => exact h
  | table rows =>
    simp only [Instr.readAs]
    split
    · rfl
    · exact h

end Sys2Proof
end

