-- ==== Sys2Proof/Laws/Step.lean ====
section
/-! SUPPORT. The boundary between two instructions: when an instruction runs, and what happens instead (R315). -/

namespace Sys2Proof.Machine

/-- An instruction runs exactly where no reset is asserted, the machine is running and no interrupt is accepted (R315). -/
theorem State.boundaryEvent_none {s : State} :
    s.boundaryEvent = none ↔ s.input.reset = false ∧ s.run = .running ∧ s.acceptsIrq = false := by
  cases hr : s.input.reset <;> cases hs : s.run <;> cases hi : s.acceptsIrq <;>
    simp [State.boundaryEvent, hr, hs, hi]

theorem State.boundaryEvent_reset {s : State} (h : s.input.reset = true) :
    s.boundaryEvent = some s.sampled.resetSequence := by
  simp [State.boundaryEvent, h]

theorem State.boundaryEvent_stopped {s : State} (h : s.input.reset = false) (hs : s.run = .stopped) :
    s.boundaryEvent = some s.sampled := by
  simp [State.boundaryEvent, h, hs]

theorem State.boundaryEvent_waiting {s : State} (h : s.input.reset = false) (hs : s.run = .waiting) :
    s.boundaryEvent = some (if s.acceptsIrq then s.sampled.enterAt Config.hwiVectorLoc else s.sampled) := by
  simp [State.boundaryEvent, h, hs]

theorem State.boundaryEvent_irq {s : State} (h : s.input.reset = false) (hs : s.run = .running)
    (hi : s.acceptsIrq = true) :
    s.boundaryEvent = some (s.sampled.interruptEntry s.pc Config.hwiVectorLoc) := by
  simp [State.boundaryEvent, h, hs, hi]

/-- What can stand in place of an instruction: a reset sequence, nothing, the awaited interrupt, or a hardware interrupt
(R315 to R317). -/
theorem State.boundaryEvent_cases {s t : State} (h : s.boundaryEvent = some t) :
    (s.input.reset = true ∧ t = s.sampled.resetSequence) ∨
    (s.input.reset = false ∧ s.run ≠ .running ∧ t = s.sampled) ∨
    (s.input.reset = false ∧ s.run = .waiting ∧ s.acceptsIrq = true ∧ t = s.sampled.enterAt Config.hwiVectorLoc) ∨
    (s.input.reset = false ∧ s.run = .running ∧ s.acceptsIrq = true ∧
      t = s.sampled.interruptEntry s.pc Config.hwiVectorLoc) := by
  unfold State.boundaryEvent at h
  cases hr : s.input.reset <;> cases hs : s.run <;> cases hi : s.acceptsIrq <;> simp_all

/-- What the boundary asks for is the whole step. -/
theorem step_boundary {s t : State} (h : s.boundaryEvent = some t) : step s = .next t := by
  simp [step, h]

/-- The two ways a step can go. -/
theorem step_cases (s : State) :
    (∃ t, s.boundaryEvent = some t ∧ step s = .next t) ∨
      (s.boundaryEvent = none ∧ step s = exec s.fetch.1 s.advanced) := by
  cases h : s.boundaryEvent with
  | some t => exact .inl ⟨t, rfl, step_boundary h⟩
  | none => exact .inr ⟨rfl, by simp [step, h]⟩

theorem sampled_steady (s : State) : Steady s s.sampled := .of_mem rfl rfl

theorem advanced_steady (s : State) : Steady s s.advanced := .of_mem rfl rfl

/-- What stands in place of an instruction keeps memory canonical, the configuration, and what is not RAM. -/
theorem State.boundaryEvent_steady {s t : State} (h : s.boundaryEvent = some t) : Steady s t := by
  obtain ⟨-, rfl⟩ | ⟨-, -, rfl⟩ | ⟨-, -, -, rfl⟩ | ⟨-, -, -, rfl⟩ := State.boundaryEvent_cases h
  · exact (sampled_steady s).trans (resetSequence_steady _)
  · exact sampled_steady s
  · exact (sampled_steady s).trans (enterAt_steady _ _)
  · exact (sampled_steady s).trans (interruptEntry_steady _ _ _)

end Sys2Proof.Machine
end

