-- ==== Sys2Proof/Tests/Slice0.lean ====
section
/-! SUPPORT. Tests: the forms that `wellFormed` refuses, words written out from the tables of `30_encoding.md`, one step on
small states with the results that `96_derived_vectors.md` (rows V<n>) and the rules' own examples give, and for every
statement with hypotheses a concrete case that meets them. -/

namespace Sys2Proof.Tests

open Sys2Proof.Machine

/-! ## Helpers -/

/-- The default start of the vectors: CCR = D0, the stack at 01FF, execution at 1001 (95, conventions). -/
def start : State := { State.reset with ccr := 0xD0, sp := 0x01FF, pc := 0x1001 }

/-- `start` with one byte of memory. -/
def withByte (p : Word) (v : Byte) : State := start.write8 p v

/-- What `f` reads in the next state, if there is one. -/
def after {α : Type} (r : Result) (f : State → α) : Option α :=
  match r with
  | .next t => some (f t)
  | .fault _ => none
  | .refused _ => none

/-- `start` with the bytes of `bs` at PC. -/
def program (bs : List Byte) : State := start.writeBytes start.pc bs

/-! ## WellFormed: forms that Table 1 does not have (C4, D28, R82) -/

theorem test_inc_no_zero_page : (Instr.inc (.zp 0x20)).wellFormed = false := by decide

theorem test_rol_no_zero_page : (Instr.rol (.zp 0xFF)).wellFormed = false := by decide

theorem test_jmp_no_zero_page : (Instr.jmp (.zp 0x20)).wellFormed = false := by decide

theorem test_addx_no_zero_page : (Instr.addx (.mem (.zp 0x20))).wellFormed = false := by decide

theorem test_unrecognised_no_form : Instr.unrecognised.wellFormed = false := by decide

theorem test_zero_page_forms :
    (Instr.jsr (.zp 0x20)).wellFormed = true ∧ (Instr.bset (.zp 0x20) 0x01).wellFormed = true ∧
      (Instr.inc (.idx .Z true 0x80)).wellFormed = true ∧ (Instr.addz (.mem (.rel 0xFFFF))).wellFormed = true := by
  decide

/-! ## Decode: one word or more of each family, from the rows of R91 to R95 -/

/-- LDAA immediate is 86, STAB direct F7, TAB 16 (R91, R94). -/
theorem test_decode_moves :
    decode .m68hc11 (bytesOf [0x86, 0x80]) = (.ldaa (.imm 0x80), 2) ∧
      decode .m68hc11 (bytesOf [0xF7, 0x20, 0x01]) = (.stab (.dir 0x2001), 3) ∧
      decode .m68hc11 (bytesOf [0x16]) = (.tab, 1) := by decide

/-- ADDB zero page is DB, SBCA indexed by Y 18 A2, EORB immediate C8 (R94). -/
theorem test_decode_arithmetic :
    decode .m68hc11 (bytesOf [0xDB, 0x20]) = (.addb (.mem (.zp 0x20)), 2) ∧
      decode .m68hc11 (bytesOf [0x18, 0xA2, 0x05]) = (.sbca (.mem (.idx .Y false 0x05)), 3) ∧
      decode .m68hc11 (bytesOf [0xC8, 0xFF]) = (.eorb (.imm 0xFF), 2) := by decide

/-- ROL indexed by X is 69, COM direct 73, ASRB 57, BCLR indexed by Y 18 1D (R92, R93, R95). -/
theorem test_decode_modify :
    decode .m68hc11 (bytesOf [0x69, 0x02]) = (.rol (.idx .X false 0x02), 2) ∧
      decode .m68hc11 (bytesOf [0x73, 0x03, 0x01]) = (.com (.dir 0x0301), 3) ∧ decode .m68hc11 (bytesOf [0x57]) = (.asrb, 1) ∧
      decode .m68hc11 (bytesOf [0x18, 0x1D, 0x01, 0x80]) = (.bclr (.idx .Y false 0x01) 0x80, 4) := by decide

/-- SEV is 0B, TPA 07 (R91). -/
theorem test_decode_ccr : decode .m68hc11 (bytesOf [0x0B]) = (.sev, 1) ∧
  decode .m68hc11 (bytesOf [0x07]) = (.tpa, 1) := by decide

/-- CMPD immediate is 1A 83, STD direct FD, LSRD 04, IDIV 02 (R91, R95). -/
theorem test_decode_double :
    decode .m68hc11 (bytesOf [0x1A, 0x83, 0x12, 0x34]) = (.cmpd (.imm 0x1234), 4) ∧
      decode .m68hc11 (bytesOf [0xFD, 0x01, 0x02]) = (.std (.dir 0x0102), 3) ∧ decode .m68hc11 (bytesOf [0x04]) = (.lsrd, 1) ∧
      decode .m68hc11 (bytesOf [0x02]) = (.idiv, 1) := by decide

/-- CPX indexed by Y is CD AC, STY zero page 18 DF, INY 18 08 (R91, R95). -/
theorem test_decode_pointer :
    decode .m68hc11 (bytesOf [0xCD, 0xAC, 0x10]) = (.cpx (.mem (.idx .Y false 0x10)), 3) ∧
      decode .m68hc11 (bytesOf [0x18, 0xDF, 0x40]) = (.sty (.zp 0x40), 3) ∧
        decode .m68hc11 (bytesOf [0x18, 0x08]) = (.iny, 2) := by
  decide

/-- LDS immediate is 8E, TXS 35 (R91, R95). -/
theorem test_decode_stack :
    decode .m68hc11 (bytesOf [0x8E, 0x01, 0xFF]) = (.lds (.imm 0x01FF), 3) ∧
      decode .m68hc11 (bytesOf [0x35]) = (.txs, 1) := by decide

/-- JSR zero page is 9D, BRCLR indexed by X 1F, BSR 8D, RTS 39; 25 is BCS, its second name BLO (R90 to R92, R95). -/
theorem test_decode_flow :
    decode .m68hc11 (bytesOf [0x9D, 0x80]) = (.jsr (.zp 0x80), 2) ∧
      decode .m68hc11 (bytesOf [0x1F, 0x04, 0x81, 0xFA]) = (.brclr (.idx .X false 0x04) 0x81 0xFA, 4) ∧
      decode .m68hc11 (bytesOf [0x8D, 0x10]) = (.bsr 0x10, 2) ∧ decode .m68hc11 (bytesOf [0x39]) = (.rts, 1) ∧
      decode .m68hc11 (bytesOf [0x25, 0x01]) = (.bcs 0x01, 2) := by decide

/-- WAI is 3E, RTI 3B, STOP CF (R91). -/
theorem test_decode_control :
    decode .m68hc11 (bytesOf [0x3E]) = (.wai, 1) ∧ decode .m68hc11 (bytesOf [0x3B]) = (.rti, 1) ∧
      decode .m68hc11 (bytesOf [0xCF]) = (.stop, 1) := by
  decide

/-- The M6811 codes TEST (00) and BRN (21) are unrecognised (R83). -/
theorem test_decode_dropped :
    (decode .m68hc11 (bytesOf [0x00])).1 = .unrecognised ∧ (decode .m68hc11 (bytesOf [0x21,
      0x10])).1 = .unrecognised := by decide

/-- Table words are numbered with the first byte lowest: 1A 83 12 34 is 0x3412831A. -/
theorem test_table_word : decodeTableWord 32 0x3412831A = some (.cmpd (.imm 0x1234)) := by decide

/-- The bits above `nbits` are zero. -/
theorem test_table_word_short : decodeTableWord 8 0xFF7E = some (.jmp (.dir 0x0000)) := by decide

/-! ## One instruction -/

/-- V2: the zero loaded sets Z, clears N and V, keeps C, H, I, S, X. -/
theorem test_ldaa_zero : after (exec (.ldaa (.imm 0x00)) { start with ccr := 0xDF }) (fun t => (t.a, t.ccr)) = some (0x00,
  0xD5) := by
  decide

/-- V6: a signed offset of -1. -/
theorem test_ldaa_signed :
    after (exec (.ldaa (.mem (.idx .X true 0xFF))) { withByte 0x0FFF 0x43 with x := 0x1000 }) (·.a) = some 0x43 := by decide

/-- V7: index plus offset wraps. -/
theorem test_ldah_wraps :
    after (exec (.ldah (.mem (.idx .Z false 0x02))) { withByte 0x0001 0x99 with z := 0xFFFF }) (fun t => (t.h, t.ccr)) =
      some (0x99, 0xD8) := by decide

/-- V17: a push at 0x0000. -/
theorem test_pshb_wraps :
    after (exec .pshb { start with b := 0x34, sp := 0x0000 }) (fun t => (t.sp, t.read8 0x0000)) = some (0xFFFF, 0x34) := by
  decide

/-- V18: a pull writes no flag. -/
theorem test_pula_no_flags :
    after (exec .pula { withByte 0x01FF 0x80 with sp := 0x01FE, ccr := 0xD4 }) (fun t => (t.a, t.sp, t.ccr)) =
      some (0x80, 0x01FF, 0xD4) := by decide

/-- V22: 0xFF + 0x01 sets Z, C and H, clears V. -/
theorem test_adda_carry :
    after (exec (.adda (.imm 0x01)) { start with a := 0xFF }) (fun t => (t.a, t.ccr)) = some (0x00, 0xF5) := by decide

/-- V30: the carry in makes 0x7F overflow. -/
theorem test_adca_carry_in :
    after (exec (.adca (.imm 0x00)) { start with a := 0x7F, ccr := 0xD1 }) (fun t => (t.a, t.ccr)) = some (0x80, 0xFA) := by
  decide

/-- V37: 0x7F - 0xFF overflows and borrows. -/
theorem test_suba_overflow :
    after (exec (.suba (.imm 0xFF)) { start with a := 0x7F }) (fun t => (t.a, t.ccr)) = some (0x80, 0xDB) := by decide

/-- V41: 0x00 - 0xFF - 1 is zero with a borrow. -/
theorem test_sbca_borrow :
    after (exec (.sbca (.imm 0xFF)) { start with a := 0x00, ccr := 0xD1 }) (fun t => (t.a, t.ccr)) = some (0x00, 0xD5) := by
  decide

/-- V58: INC keeps C and sets V at 0x80. -/
theorem test_inca_overflow :
    after (exec .inca { start with a := 0x7F, ccr := 0xD1 }) (fun t => (t.a, t.ccr)) = some (0x80, 0xDB) := by decide

/-- V66: DEC of a memory byte to zero. -/
theorem test_dec_memory :
    after (exec (.dec (.dir 0x0300)) (withByte 0x0300 0x01)) (fun t => (t.read8 0x0300, t.ccr)) = some (0x00, 0xD4) := by
  decide

/-- V68: 0x80 is its own negative. -/
theorem test_nega_min :
    after (exec .nega { start with a := 0x80 }) (fun t => (t.a, t.ccr)) = some (0x80, 0xDB) := by decide

/-- V74: COM of a memory byte. -/
theorem test_com_memory :
    after (exec (.com (.dir 0x0300)) (withByte 0x0300 0xAA)) (fun t => (t.read8 0x0300, t.ccr)) = some (0x55, 0xD1) := by
  decide

/-- V97: ASR keeps the sign. -/
theorem test_asrb_sign :
    after (exec .asrb { start with b := 0x80 }) (fun t => (t.b, t.ccr)) = some (0xC0, 0xDA) := by decide

/-- V99: the old carry enters bit 7. -/
theorem test_rora_carry :
    after (exec .rora { start with a := 0x02, ccr := 0xD1 }) (fun t => (t.a, t.ccr)) = some (0x81, 0xDA) := by decide

/-- V110: the old carry enters bit 0 of a memory byte. -/
theorem test_rol_memory :
    after (exec (.rol (.dir 0x2000)) { withByte 0x2000 0x80 with ccr := 0xD1 }) (fun t => (t.read8 0x2000, t.ccr)) =
      some (0x01, 0xD3) := by decide

/-- V117: BCLR clears the bits of the mask. -/
theorem test_bclr :
    after (exec (.bclr (.idx .Y false 0x00) 0x80) { withByte 0x0020 0x81 with y := 0x0020 })
      (fun t => (t.read8 0x0020, t.ccr)) = some (0x01, 0xD0) := by decide

/-- V122: ALH writes the accumulator H and the flag H. -/
theorem test_alh :
    after (exec .alh { start with h := 0x7F, l := 0x01 }) (fun t => (t.h, t.l, t.ccr)) = some (0x80, 0x01, 0xFA) := by decide

/-- V129: SXTB of a negative byte. -/
theorem test_sxtb :
    after (exec .sxtb { start with a := 0x55, b := 0x80, ccr := 0xD3 }) (fun t => (t.a, t.b, t.ccr)) =
      some (0xFF, 0x80, 0xD8) := by decide

/-- V136: the largest product. -/
theorem test_mul :
    after (exec .mul { start with a := 0xFF, b := 0xFF, ccr := 0xDE }) (fun t => (t.a, t.b, t.ccr)) =
      some (0xFE, 0x01, 0xDE) := by decide

/-- V144: the sum of 99 and 99 before the adjustment, and its adjustment. -/
theorem test_daa : daaFn .m68hc11 0 0x32 true true = (0x98, true) := by decide

/-- V155: TAP loads all eight bits. -/
theorem test_tap : after (exec .tap { start with a := 0x00, ccr := 0xFF }) (·.ccr) = some 0x00 := by decide

/-- V161: the second byte of a word at 0xFFFF is at 0x0000. -/
theorem test_ldd_wraps :
    after (exec (.ldd (.mem (.dir 0xFFFF))) ((withByte 0xFFFF 0xAB).write8 0x0000 0xCD)) (fun t => (t.a, t.b)) =
      some (0xAB, 0xCD) := by decide

/-- V166: XGDE, with N and Z of the new D. -/
theorem test_xgde :
    after (exec .xgde { start with h := 0x80, ccr := 0xD3 }) (fun t => (t.a, t.h, t.ccr)) = some (0x80, 0x00, 0xD9) := by
  decide

/-- V185: the product of MED is cut to 16 bits and E is kept. -/
theorem test_med :
    after (exec .med { start with a := 0x01, h := 0x01 }) (fun t => (t.dbl .D, t.dbl .E)) = some (0x0000, 0x0100) := by
  decide

/-- V200: the address comes from the old X. -/
theorem test_ldx_same_register :
    after (exec (.ldx (.mem (.idx .X false 0x02))) { withByte 0x0042 0x80 with x := 0x0040 }) (fun t => (t.x, t.ccr)) =
      some (0x8000, 0xD8) := by decide

/-- V204: the old X is both address and datum. -/
theorem test_stx_same_register :
    after (exec (.stx (.idx .X false 0x00)) { start with x := 0x0050 }) (fun t => (t.read8 0x0050, t.read8 0x0051)) =
      some (0x00, 0x50) := by decide

/-- V206: the second byte pushed lies at 0xFFFF. -/
theorem test_pshy_wraps :
    after (exec .pshy { start with y := 0xBEEF, sp := 0x0000 }) (fun t => (t.sp, t.read8 0x0000, t.read8 0xFFFF)) =
      some (0xFFFE, 0xEF, 0xBE) := by decide

/-- V215: INX writes Z alone. -/
theorem test_inx :
    after (exec .inx { start with x := 0x00FF, ccr := 0xDF }) (fun t => (t.x, t.ccr)) = some (0x0100, 0xDB) := by decide

/-- V230: TSY adds one and wraps. -/
theorem test_tsy : after (exec .tsy { start with sp := 0xFFFF }) (fun t => (t.y, t.sp)) = some (0x0000, 0xFFFF) := by decide

/-- V232: TXS subtracts one and wraps. -/
theorem test_txs : after (exec .txs { start with x := 0x0000 }) (fun t => (t.x, t.sp)) = some (0x0000, 0xFFFF) := by decide

/-- V244: a jump with a signed offset of -128. -/
theorem test_jmp_signed :
    after (exec (.jmp (.idx .X true 0x80)) { start with x := 0x2000 }) (·.pc) = some 0x1F80 := by decide

/-- R247's example: BRSET is taken where every bit of the mask is set. -/
theorem test_brset :
    after (exec (.brset (.zp 0x20) 0x81 0x10) (withByte 0x0020 0x81)) (·.pc) = some 0x1011 ∧
      after (exec (.brset (.zp 0x20) 0x81 0x10) (withByte 0x0020 0x80)) (·.pc) = some 0x1001 := by decide

/-- R5, D4: BRA at 1000 with offset 10, "PC" being the address after it, of its opcode, of its offset. -/
theorem test_rel_base :
    let s (b : Config.RelBase) : State :=
      { ({ start with pc := 0x1000 } : State).writeBytes 0x1000 [0x20,
        0x10] with cfg := { Config.defaults with relPcBase := b } }
    after (step (s .nextPc)) (·.pc) = some 0x1012 ∧ after (step (s .opcode)) (·.pc) = some 0x1010 ∧
      after (step (s .offsetField)) (·.pc) = some 0x1011 := by decide

/-- R5, D10: ADDA keeps H where `H_WRITERS` has no ADD. -/
theorem test_h_writers :
    after (exec (.adda (.imm 0x01)) { start with a := 0x0F, cfg := { Config.defaults with hWriters := [.adc .A] } })
      (fun t => (t.a, t.flag .H)) = some (0x10, false) := by decide

/-- R277's example: the frame of SWI, CCR as it was before I is set. -/
theorem test_swi_frame :
    after (exec .swi { start with ccr := 0xC0 })
      (fun t => (t.sp, t.read8 0x01FB, t.read8 0x01FA, t.read8 0x01F3, t.ccr)) = some (0x01F2, 0x01, 0x10, 0xC0, 0xD0) := by
  decide

/-- R280: STOP with S set, and with S clear. -/
theorem test_stop :
    after (exec .stop start) (·.run) = some .running ∧ after (exec .stop { start with ccr := 0x50 }) (·.run) = some .stopped := by
  decide

/-! ## One step -/

/-- R242's example from the bytes on: JSR ($2000) at 1000. -/
theorem test_step_jsr :
    after (step { ({ start with pc := 0x1000 } : State).writeBytes 0x1000 [0xBD, 0x20, 0x00] with sp := 0x01FF })
      (fun t => (t.pc, t.sp, t.read8 0x01FE, t.read8 0x01FF)) = some (0x2000, 0x01FD, 0x10, 0x03) := by decide

/-- R15, R45: `Next_PC` wraps after 0xFFFF, and the target of BRA with it. -/
theorem test_step_bra_wraps :
    after (step (({ start with pc := 0xFFFE } : State).writeBytes 0xFFFE [0x20, 0x02])) (·.pc) = some 0x0002 := by decide

/-- `withFetchWord` places an instruction that the next step after reset runs: STAA ($4001). -/
theorem test_withFetchWord :
    after (step ({ State.reset with a := 0x77 }.withFetchWord 24 0x0140B7)) (fun t => (t.read8 0x4001, t.pc)) =
      some (0x77, 0x0003) := by decide

/-- D20: an interrupt requested while I is set is accepted at the boundary after CLI. -/
theorem test_irq_after_cli :
    after (exec .cli { start with inputs := [⟨false, true⟩] }) (·.acceptsIrq) = some true := by decide

/-! ## What the hypotheses of the statements admit

Every statement below has hypotheses; the theorem named after it shows concrete states and operands that meet them, each
clause at a boundary of its range. -/

/-- The last and the first byte of memory written: canonical, at both ends of the address space. -/
def edges : State := { start with mem := [(0, 0x01), (65535, 0xFF)] }

/-- `start` with the signals of this step. -/
def withInputs (reset irq : Bool) : State := { start with inputs := [⟨reset, irq⟩] }

theorem witness_EncodeThenDecode :
    (Instr.brset (.idx .Y false 0xFF) 0x80 0xFE).wellFormed = true ∧
      encode .m68hc11 (.brset (.idx .Y false 0xFF) 0x80 0xFE) = some [0x18, 0x1E, 0xFF, 0x80, 0xFE] ∧
      StartsWith (bytesOf [0x18, 0x1E, 0xFF, 0x80, 0xFE]) [0x18, 0x1E, 0xFF, 0x80, 0xFE] :=
  ⟨by decide, by decide, startsWith_bytesOf _⟩

/-- The shared codes: BLO encodes, to what decodes to BCS. -/
theorem witness_EncodeThenDecode_shared :
    (Instr.blo 0x00).wellFormed = true ∧ encode .m68hc11 (.blo 0x00) = some [0x25, 0x00] ∧
      StartsWith (bytesOf [0x25, 0x00, 0xFF]) [0x25, 0x00] ∧ (Instr.blo 0x00).readAs .m68hc11 = .bcs 0x00 :=
  ⟨by decide, by decide, fun k h => by match k, h with
    | 0, _ => rfl
    | 1, _ => rfl, by decide⟩

/-- Another `OPC`: BCS at 25, BLO with a code of its own, 41, and ADDH immediate at 18 8B. -/
def otherOpc : Config.Opc := .table [([0x25], .bcs 0), ([0x41], .blo 0), ([0x18, 0x8B], .addh (.imm 0))]

/-- Under that `OPC` 41 is BLO, BCC has no code, and 86 is no instruction. -/
theorem test_other_opc :
    decode otherOpc (bytesOf [0x41, 0x10]) = (.blo 0x10, 2) ∧ encode otherOpc (.blo 0x10) = some [0x41, 0x10] ∧
      encode otherOpc (.bcc 0x10) = none ∧ (decode otherOpc (bytesOf [0x86, 0x10])).1 = .unrecognised := by decide

/-- Two codes of which one begins the other, or two codes of one form, make no code table. -/
theorem test_no_code_table :
    codeTable [([0x41], .blo 0), ([0x41, 0x00], .bcs 0)] = false ∧ codeTable [([0x41], .blo 0), ([0x25], .blo 0)] = false ∧
      codeTable [([], .nop)] = false ∧ codeTable [([0x41], .inc (.zp 0))] = false := by decide

theorem witness_EncodeThenDecode_other :
    (Instr.blo 0x80).wellFormed = true ∧ encode otherOpc (.blo 0x80) = some [0x41, 0x80] ∧
      StartsWith (bytesOf [0x41, 0x80]) [0x41, 0x80] ∧ (Instr.blo 0x80).readAs otherOpc = .blo 0x80 :=
  ⟨by decide, by decide, startsWith_bytesOf _, by decide⟩

theorem witness_DecodeThenEncode :
    (decode .m68hc11 (bytesOf [0xFF, 0xFF, 0xFF])).1 ≠ .unrecognised ∧
      (decode .m68hc11 (bytesOf [0xCD, 0xEF, 0xFF])).1 ≠ .unrecognised ∧
      (decode otherOpc (bytesOf [0x18, 0x8B, 0xFF])).1 ≠ .unrecognised := by decide

/-- Two readers with the same opcode, 18 1E, and other bytes after it. -/
theorem witness_OpcodeDecides :
    (decode .m68hc11 (bytesOf [0x18, 0x1E, 0x00, 0x01, 0xFE])).1 ≠ .unrecognised ∧
      ∀ k < (decode .m68hc11 (bytesOf [0x18, 0x1E, 0x00, 0x01, 0xFE])).2 -
          (decode .m68hc11 (bytesOf [0x18, 0x1E, 0x00, 0x01, 0xFE])).1.operandLen,
        bytesOf [0x18, 0x1E, 0xFF, 0x80, 0x00] k = bytesOf [0x18, 0x1E, 0x00, 0x01, 0xFE] k := by decide

/-- A map with memory that keeps its byte at 8000 to BFFF and nothing from FF00 on. -/
def mapped : State :=
  { edges with cfg := { Config.defaults with memMap := [⟨0x8000, 0xBFFF, .rom⟩, ⟨0xFF00, 0xFFFF, .bus⟩] } }

/-- Each base of the relative modes. -/
theorem witness_EffectiveAddress :
    start.cfg.relPcBase = .nextPc ∧
      ({ start with cfg := { Config.defaults with relPcBase := .opcode } } : State).cfg.relPcBase = .opcode ∧
      ({ start with cfg := { Config.defaults with relPcBase := .offsetField } } : State).cfg.relPcBase = .offsetField := by
  decide

/-- The ends of the regions of a map: RAM on one side, none on the other. -/
theorem witness_MemoryPrimitives :
    edges.Inv ∧ mapped.Inv ∧ edges.writable 0xFFFF = true ∧ edges.writable (0xFFFF + 1) = true ∧
      mapped.writable 0x7FFF = true ∧ mapped.writable 0x8000 = false ∧ mapped.backed 0x8000 = true ∧
      mapped.writable 0xBFFF = false ∧ mapped.writable 0xC000 = true ∧ mapped.backed 0xFF00 = false ∧
      mapped.writable 0xFEFF = true := ⟨rfl, rfl, by decide⟩

theorem witness_StoreAccumulator : edges.Inv := rfl

theorem witness_PushRegister : ({ edges with sp := 0x0000 } : State).Inv := rfl

theorem witness_IncrementDecrement : edges.Inv ∧ readTarget (Target8.mem (.dir 0xFFFF)) edges = 0xFF := ⟨rfl, by decide⟩

theorem witness_NegateComplement : edges.Inv ∧ readTarget (Target8.mem (.dir 0x0001)) edges = 0x00 := ⟨rfl, by decide⟩

theorem witness_ClearTest : edges.Inv ∧ readTarget (Target8.mem (.dir 0x0000)) edges = 0x01 := ⟨rfl, by decide⟩

theorem witness_SetClearBits : edges.Inv := rfl

theorem witness_StoreWord :
    edges.Inv ∧ ((Instr.sts (.dir 0xFFFF), edges.sp) : Instr × Word) ∈
      [(.std (.dir 0xFFFF), edges.dbl .D), (.ste (.dir 0xFFFF), edges.dbl .E), (.stx (.dir 0xFFFF), edges.x),
       (.sty (.dir 0xFFFF), edges.y), (.stz (.dir 0xFFFF), edges.z), (.sts (.dir 0xFFFF), edges.sp)] :=
  ⟨rfl, by simp⟩

theorem witness_TransferAccumulator :
    ((.tlh, .H, .L) : Instr × Acc × Acc) ∈ [(.tab, .B, .A), (.tba, .A, .B), (.thl, .L, .H), (.tlh, .H, .L)] := by decide

theorem witness_AddAccumulator : ((.alh, .alh, .H, .L) : Instr × Config.HWriter × Acc × Acc) ∈
    [(.aba, .aba, .A, .B), (.alh, .alh, .H, .L)] := by decide

theorem witness_SubtractAccumulator : ((.sba, .sba, .A, .B) : Instr × Config.HWriter × Acc × Acc) ∈
    [(.sba, .sba, .A, .B), (.slh, .slh, .H, .L)] := by decide

theorem witness_CompareRegister : ((.clh, .clh, .H, .L) : Instr × Config.HWriter × Acc × Acc) ∈
    [(.cba, .cba, .A, .B), (.clh, .clh, .H, .L)] := by decide

/-- A configuration in which subtractions and increments write H, and additions do not. -/
def halfOnSub : State := { edges with cfg := { Config.defaults with hWriters := [.sub .A, .inc none, .subDbl .D] } }

/-- Which of the instructions may write H there. -/
theorem test_h_writers_other :
    halfOnSub.writes (.sub .A) [.N] = [.H, .N] ∧ halfOnSub.writes (.sub .B) [.N] = [.N] ∧
      halfOnSub.writes (.inc none) [] = [.H] ∧ start.writes (.sub .A) [] = [] ∧
      Instr.hWriter (.subd (.imm 0)) = some (.subDbl .D) ∧ Instr.hWriter .abx = none := by decide

/-- SUBA, where it writes H: the result is as ever, and all of CCR but H, of which nothing is known. -/
theorem test_suba_writes_h :
    after (exec (.suba (.imm 0x01)) { halfOnSub with a := 0x00, ccr := 0xD0 }) (·.a) = some 0xFF ∧
      ∀ v, ccrSet (sub8From .A 0x01 false { halfOnSub with a := 0x00, ccr := 0xD0 }).ccr .H v =
        (if v = true then 0xF9 else 0xD9) := by decide

/-- Every clause of the shift table, for a byte with both end bits set: the result and the bit shifted out. -/
theorem witness_ShiftRotate :
    edges.Inv ∧ readTarget (Target8.mem (.dir 0xFFFF)) edges = 0xFF ∧
      (BitVec.cons false ((0xFF#8).extractLsb' 1 7), (0xFF#8).getLsbD 0) = (0x7F#8, true) ∧
      (BitVec.concat ((0xFF#8).extractLsb' 0 7) false, (0xFF#8).getLsbD 7) = (0xFE#8, true) := ⟨rfl, by decide⟩

theorem witness_ShiftDouble :
    (BitVec.cons (0x8001#16).msb ((0x8001#16).extractLsb' 1 15), (0x8001#16).getLsbD 0) = (0xC000#16, true) ∧
      (BitVec.concat ((0x8001#16).extractLsb' 0 15) false, (0x8001#16).getLsbD 15) = (0x0002#16, true) := by decide

theorem witness_CarryOverflowFlags :
    ((.sev, .V, true) : Instr × Flag × Bool) ∈ [(.clc, .C, false), (.sec, .C, true), (.clv, .V, false), (.sev, .V,
      true)] := by
  decide

theorem witness_MaskAndTransfer : ((.cli, false) : Instr × Bool) ∈ [(.cli, false), (.sei, true)] := by decide

/-- MUL with the M68HC11's carry, and with another. -/
theorem witness_MultiplyRegisters :
    start.cfg.mulC = .m68hc11 ∧ ({ start with cfg := { Config.defaults with mulC := .other } } : State).cfg.mulC ≠ .m68hc11 := by
  decide

/-- A, C and H as BCD additions leave them, at the ends: 99 + 99 + 1, 00 + 00; and as none does. -/
theorem witness_DecimalAdjust :
    start.cfg.daaFn = .m68hc11 ∧ daaDefined 0x33 true true = true ∧ daaDefined 0x00 false false = true ∧
      daaDefined 0x00 false true = false := by decide

theorem witness_DecimalSum :
    edges.cfg.daaFn = .m68hc11 ∧ (.add .A ∈ edges.cfg.hWriters ∧ .adc .A ∈ edges.cfg.hWriters ∧ .aba ∈ edges.cfg.hWriters) ∧
      isBcd edges.a ∧ isBcd edges.b ∧ isBcd 0x99 ∧ isBcd (oper8 (.imm 0x99) edges) ∧ ¬isBcd 0x9A := by
  unfold isBcd
  decide

/-- TAP and RTI change S; ABA changes H. -/
theorem witness_SpecialFlagWriters :
    after (exec .tap { start with a := 0x00 }) (·.flag .S) = some false ∧ start.flag .S = true ∧
      after (exec .rti start) (·.flag .X) = some false ∧ start.flag .X = true ∧
      after (exec .aba { start with a := 0x08, b := 0x08 }) (·.flag .H) = some true ∧ start.flag .H = false := by decide

/-- CLI, and TAP with bit 4 clear, from the bytes on. -/
theorem witness_MaskClearedOnlyBy :
    (program [0x0E]).flag .I = true ∧ after (step (program [0x0E])) (·.flag .I) = some false ∧
      after (step { program [0x06] with a := 0xEF }) (·.flag .I) = some false := by decide

theorem witness_CallSubroutine :
    ({ edges with sp := 0x0000 } : State).Inv ∧ (∃ m, Instr.jsr (.rel 0x8000) = .jsr m) ∧ ∃ off, Instr.bsr 0x80 = .bsr off :=
  ⟨rfl, ⟨_, rfl⟩, ⟨_, rfl⟩⟩

/-- The stack in RAM, its two bytes at 0000 and FFFF. -/
theorem witness_CallThenReturn :
    let s : State := { edges with sp := 0x0000 }
    s.Inv ∧ s.writable s.sp = true ∧ s.writable (s.sp - 1) = true ∧ (∃ m, Instr.jsr (.dir 0x8000) = .jsr m) ∧
      ∃ off, Instr.bsr 0x80 = .bsr off := ⟨rfl, by decide, by decide, ⟨_, rfl⟩, ⟨_, rfl⟩⟩

theorem witness_FlagBranches :
    ((.bvc 0x7F, !edges.flag .V) : Instr × Bool) ∈
      [(.bmi 0x7F, edges.flag .N), (.bpl 0x7F, !edges.flag .N), (.beq 0x7F, edges.flag .Z), (.bne 0x7F, !edges.flag .Z),
       (.bcs 0x7F, edges.flag .C), (.bcc 0x7F, !edges.flag .C), (.bvs 0x7F, edges.flag .V), (.bvc 0x7F, !edges.flag .V)] := by
  decide

theorem witness_ComparisonBranches :
    ((.bls 0x80, edges.flag .C || edges.flag .Z) : Instr × Bool) ∈
      [(.bgt 0x80, !(edges.flag .Z || (edges.flag .N ^^ edges.flag .V))), (.blt 0x80, edges.flag .N ^^ edges.flag .V),
       (.bge 0x80, !(edges.flag .N ^^ edges.flag .V)), (.ble 0x80, edges.flag .Z || (edges.flag .N ^^ edges.flag .V)),
       (.bhi 0x80, !(edges.flag .C || edges.flag .Z)), (.blo 0x80, edges.flag .C), (.bhs 0x80, !edges.flag .C),
       (.bls 0x80, edges.flag .C || edges.flag .Z)] := by decide

/-- Both cases of either branch: the mask 0x81 against 0xFF and 0x01, the mask 0 against anything. -/
theorem witness_BitTestBranches :
    (∀ k < 8, (0x81#8).getLsbD k = true → (edges.read8 0xFFFF).getLsbD k = true) ∧
      (∃ k < 8, (0x81#8).getLsbD k = true ∧ (edges.read8 0x0000).getLsbD k = false) ∧
      (∀ k < 8, (0x00#8).getLsbD k = true → (edges.read8 0x0000).getLsbD k = false) ∧
      (∃ k < 8, (0x01#8).getLsbD k = true ∧ (edges.read8 0x0000).getLsbD k = true) := by decide

theorem witness_SoftwareTraps :
    ({ edges with sp := 0x0005 } : State).Inv ∧ ((.unrecognised, Config.emuVectorLoc) : Instr × Word) ∈
      [(.swi, Config.swiVectorLoc), (.idiv, Config.emuVectorLoc), (.fdiv, Config.emuVectorLoc),
       (.unrecognised, Config.emuVectorLoc)] := ⟨rfl, by simp⟩

theorem witness_WaitForInterrupt : ({ edges with sp := 0x000B } : State).Inv := rfl

/-- S set, S clear; stopped with reset low and high. -/
theorem witness_StopInstruction :
    start.flag .S = true ∧ ({ start with ccr := 0x7F } : State).flag .S = false ∧
      (let s : State := { withInputs false true with run := .stopped }
       s.run = .stopped ∧ s.input.reset = false) ∧
      (let s : State := { withInputs true false with run := .stopped }
       s.run = .stopped ∧ s.input.reset = true) := by decide

/-- Waiting: requested and enabled, not requested, masked. -/
theorem witness_WaitingMachine :
    let s (irq : Bool) (ccr : Byte) : State := { withInputs false irq with run := .waiting, ccr := ccr }
    (∀ irq ccr, (s irq ccr).run = .waiting ∧ (s irq ccr).input.reset = false) ∧
      ((s true 0xEF).input.irq = true ∧ (s true 0xEF).flag .I = false) ∧
      (s false 0xEF).input.irq = false ∧ (s true 0x10).flag .I = true := ⟨fun _ _ => ⟨rfl, rfl⟩, by decide⟩

theorem witness_HardwareInterrupt :
    let s : State := { withInputs false true with ccr := 0xEF }
    s.Inv ∧ s.run = .running ∧ s.input.reset = false ∧ s.input.irq = true ∧ s.flag .I = false := ⟨rfl, by decide⟩

theorem witness_InterruptThenReturn :
    let s : State := { withInputs false true with ccr := 0xEF, sp := 0x0003 }
    s.Inv ∧ (∀ p ∈ frameAddrs s.sp, s.writable p = true) ∧ s.run = .running ∧ s.input.reset = false ∧
      s.input.irq = true ∧ s.flag .I = false ∧ Instr.unrecognised ∈ [Instr.swi, .idiv, .fdiv, .unrecognised] :=
  ⟨rfl, fun _ _ => rfl, rfl, rfl, rfl, by decide, by simp⟩

theorem witness_ResetStep : (withInputs true true).input.reset = true := by decide

/-- STAA ($BFFF) where the last byte of ROM is: the step answers, and the byte stays. -/
theorem witness_StepKeepsInvariant :
    let s : State := { program [0xB7, 0xBF, 0xFF] with a := 0x01, cfg := mapped.cfg }
    s.Inv ∧ s.writable 0xBFFF = false ∧ after (step s) (·.read8 0xBFFF) = some 0x00 :=
  ⟨by unfold State.Inv; decide, by decide⟩

/-- Not requested with I clear, requested with I set; and under another `OPC`, BLO by its own code. -/
theorem witness_StepRunsDecoded :
    let s (irq : Bool) (ccr : Byte) : State :=
      { program [0x7E, 0x12, 0x34] with inputs := [{ reset := false, irq := irq }], ccr := ccr }
    ((s false 0xEF).input.irq = false ∧ (s true 0x10).flag .I = true) ∧
      (∀ irq ccr, (s irq ccr).input.reset = false ∧ (s irq ccr).run = .running ∧
        decode (s irq ccr).cfg.opc (fun k => (s irq ccr).fetch8 ((s irq ccr).pc + BitVec.ofNat 16 k)) =
          (.jmp (.dir 0x1234), 3)) ∧
      (let u : State := { program [0x41, 0x80] with cfg := { Config.defaults with opc := otherOpc } }
       u.input.reset = false ∧ u.run = .running ∧ u.input.irq = false ∧
         decode u.cfg.opc (fun k => u.fetch8 (u.pc + BitVec.ofNat 16 k)) = (.blo 0x80, 2)) :=
  ⟨by decide, fun _ _ => ⟨rfl, rfl, (by decide : decode .m68hc11 (fun k => (program [0x7E, 0x12, 0x34]).fetch8
    ((program [0x7E, 0x12, 0x34]).pc + BitVec.ofNat 16 k)) = (.jmp (.dir 0x1234), 3))⟩, by decide⟩

end Sys2Proof.Tests
end

/-! ## Effective addresses as numbers (O6) -/

namespace Sys2Proof.Machine

/-- A zero-extended byte is the same number (R7). -/
@[simp] theorem zext16_toNat (v : Byte) : (zext16 v).toNat = v.toNat :=
  BitVec.toNat_setWidth_of_le (by decide)

/-- A sign-extended byte is the same signed number (R7). -/
@[simp] theorem sext16_toInt (v : Byte) : (sext16 v).toInt = v.toInt :=
  BitVec.toInt_signExtend_of_le (by decide)

/-- The sum of two words, the second read as a signed number (D3). -/
theorem add_toNat_signed (p q : Word) : ((p + q).toNat : Int) = (p.toNat + q.toInt) % 65536 := by
  have hsum : (p + q).toNat = (p.toNat + q.toNat) % 65536 := BitVec.toNat_add p q
  have hq : q.toInt = if 2 * q.toNat < 65536 then (q.toNat : Int) else (q.toNat : Int) - 65536 :=
    BitVec.toInt_eq_toNat_cond q
  split at hq <;> omega

/-- A word and a signed byte offset (D3, D27). -/
theorem add_sext16_toNat (p : Word) (off : Byte) : ((p + sext16 off).toNat : Int) = (p.toNat + off.toInt) % 65536 := by
  rw [add_toNat_signed, sext16_toInt]

/-- A word and an unsigned byte offset (D3, R103). -/
theorem add_zext16_toNat (p : Word) (off : Byte) : (p + zext16 off).toNat = (p.toNat + off.toNat) % 65536 := by
  rw [BitVec.toNat_add, zext16_toNat]

/-! The three bases of the relative modes (R5; D4, entry 8). -/

theorem State.relBase_nextPc {s : State} (h : s.cfg.relPcBase = .nextPc) (field : Word) : s.relBase field = s.pc := by
  simp [State.relBase, h]

theorem State.relBase_opcode {s : State} (h : s.cfg.relPcBase = .opcode) (field : Word) :
    s.relBase field = s.opcodeAt := by
  simp [State.relBase, h]

theorem State.relBase_offsetField {s : State} (h : s.cfg.relPcBase = .offsetField) (field : Word) :
    s.relBase field = field := by
  simp [State.relBase, h]

/-- The relative mode from whichever base its offset field has (R104; D4). -/
theorem ea_rel_toNat {s : State} {base : Word} (h : s.relBase s.operandAt = base) (off : Word) :
    (ea (.rel off) s).toNat = (base.toNat + off.toNat) % 65536 := by
  rw [ea, h, BitVec.toNat_add]

/-- The short relative mode from whichever base its offset field has (R105; D4). -/
theorem target_toNat {s : State} {base : Word} (h : s.relBase (s.pc - 1) = base) (off : Byte) :
    ((target off s).toNat : Int) = (base.toNat + off.toInt) % 65536 := by
  rw [target, h, add_sext16_toNat]

/-- Settles O6: each mode is a sum of words, read as a number; the relative ones from the base that `REL_PC_BASE` names. -/
theorem effectiveAddress : Obligations.EffectiveAddress := by
  intro s
  refine ⟨zext16_toNat, fun _ => rfl, fun r off => add_zext16_toNat (s.ireg r) off,
    fun r off => add_sext16_toNat (s.ireg r) off, fun hNext => ?_, fun hOpcode => ?_, fun hField => ?_⟩
  · exact ⟨ea_rel_toNat (s.relBase_nextPc hNext _), target_toNat (s.relBase_nextPc hNext _)⟩
  · exact ⟨ea_rel_toNat (s.relBase_opcode hOpcode _), target_toNat (s.relBase_opcode hOpcode _)⟩
  · exact ⟨ea_rel_toNat (s.relBase_offsetField hField _), target_toNat (s.relBase_offsetField hField _)⟩

end Sys2Proof.Machine

/-! ## What every step keeps (O58) -/

namespace Sys2Proof.Machine

theorem setNZ0_steady {w : Nat} (r : BitVec w) (s : State) : Steady s (s.setNZ0 r) := .of_mem rfl rfl

/-- Every instruction completes, and what it leaves is steady: the instructions of one shape together, each by the lemma of its
shape, and last those that write neither memory nor configuration and have no shape of their own (R48; D7; entries 21, 43). -/
theorem exec_next_steady (i : Instr) (s : State) : ∃ t, exec i s = .next t ∧ Steady s t := by
  cases i with
  -- 8-bit operations
  | ldaa o | ldab o | ldah o | ldal o => exact ⟨_, rfl, load8_steady _ o s⟩
  | staa m | stab m | stah m | stal m => exact ⟨_, rfl, store8_steady _ m s⟩
  | tab | tba | thl | tlh => exact ⟨_, rfl, transfer8_steady _ _ s⟩
  | psha | pshb | pshh | pshl => exact ⟨_, rfl, push8_steady _ s⟩
  | pula | pulb | pulh | pull => exact ⟨_, rfl, pull8To_steady _ s⟩
  | adda o | addb o | addh o | addl o | adca o | adcb o | adch o | adcl o | aba | alh =>
    exact ⟨_, rfl, add8To_steady _ _ _ _ s⟩
  | suba o | subb o | subh o | subl o | sbca o | sbcb o | sbch o | sbcl o | sba | slh =>
    exact ⟨_, rfl, (sub8From_steady _ _ _ s).freeHalf _⟩
  | cmpa o | cmpb o | cmph o | cmpl o | cba | clh => exact ⟨_, rfl, (compare8_steady _ _ s).freeHalf _⟩
  | anda o | andb o | andh o | andl o | oraa o | orab o | orah o | oral o | eora o | eorb o | eorh o | eorl o =>
    exact ⟨_, rfl, (logic8To_steady _ _ s).freeHalf _⟩
  | bita o | bitb o | bith o | bitl o => exact ⟨_, rfl, (setNZ0_steady _ s).freeHalf _⟩
  | inc m | inca | incb | inch | incl | dec m | deca | decb | dech | decl =>
    exact ⟨_, rfl, (modify8_nzv_steady _ _ s).freeHalf _⟩
  | neg m | nega | negb | negh | negl | com m | coma | comb | comh | coml | lsr m | lsra | lsrb | lsrh | lsrl
  | asl m | asla | aslb | aslh | asll | asr m | asra | asrb | asrh | asrl | ror m | rora | rorb | rorh | rorl
  | rol m | rola | rolb | rolh | roll => exact ⟨_, rfl, (modify8_nzvc_steady _ _ s).freeHalf _⟩
  | clr m | clra | clrb | clrh | clrl => exact ⟨_, rfl, (clear8_steady _ s).freeHalf _⟩
  | bset m mask | bclr m mask => exact ⟨_, rfl, (changeBits_steady m _ s).freeHalf _⟩
  | tst m | tsta | tstb | tsth | tstl => exact ⟨_, rfl, (test8_steady _ s).freeHalf _⟩
  | sxtb | sxtl => exact ⟨_, rfl, (signExtend_steady _ _ s).freeHalf _⟩
  | mul => exact ⟨_, rfl, (multiply8_steady s).freeHalf _⟩
  | daa => exact ⟨_, rfl, (decimalAdjust_steady s).freeHalf _⟩
  -- 16-bit accumulators
  | ldd o | lde o => exact ⟨_, rfl, load16_steady _ o s⟩
  | std m | ste m | stx m | sty m | stz m | sts m => exact ⟨_, rfl, store16_steady m _ s⟩
  | xgde => exact ⟨_, rfl, exchangeDE_steady s⟩
  | addd o | adde o | aed => exact ⟨_, rfl, (add16To_steady _ _ s).freeHalf _⟩
  | subd o | sube o | sed => exact ⟨_, rfl, (sub16From_steady _ _ s).freeHalf _⟩
  | cmpd o | cmpe o | ced | cpx o | cpy o | cpz o => exact ⟨_, rfl, (compare16_steady _ _ s).freeHalf _⟩
  | med => exact ⟨_, rfl, (multiply16_steady s).freeHalf _⟩
  | lsrd | lsre | asrd | asre | asld | asle => exact ⟨_, rfl, (shift16_steady _ _ s).freeHalf _⟩
  -- index registers and stack pointer
  | ldx o | ldy o | ldz o => exact ⟨_, rfl, loadIndex_steady _ o s⟩
  | pshx | pshy | pshz => exact ⟨_, rfl, push16_steady _ s⟩
  | pulx | puly | pulz => exact ⟨_, rfl, pullIndex_steady _ s⟩
  | xgdx | xgdy | xgdz | xgex | xgey | xgez => exact ⟨_, rfl, exchangeIndex_steady _ _ s⟩
  | inx | iny | inz | dex | dey | dez => exact ⟨_, rfl, (countIndex_steady _ _ s).freeHalf _⟩
  | lds o => exact ⟨_, rfl, loadStack_steady o s⟩
  -- control flow and processor control
  | jsr m | bsr off => exact ⟨_, rfl, call_steady _ s⟩
  | rts => exact ⟨_, rfl, returnFromCall_steady s⟩
  | bra off | brset m mask off | brclr m mask off | bmi off | bpl off | beq off | bne off | bcs off | bcc off
  | bvs off | bvc off | bgt off | blt off | bge off | ble off | bhi off | blo off | bhs off | bls off =>
    exact ⟨_, rfl, branchIf_steady _ off s⟩
  | swi => exact ⟨_, rfl, interruptEntry_steady _ _ s⟩
  | idiv | fdiv | unrecognised => exact ⟨_, rfl, emulationTrap_steady s⟩
  | wai => exact ⟨_, rfl, waitForInterrupt_steady s⟩
  | rti => exact ⟨_, rfl, returnFromInterrupt_steady s⟩
  | stop => exact ⟨_, rfl, stop_steady s⟩
  -- one register, one flag or PC alone
  | clc | sec | clv | sev | cli | sei | tap | tpa | addx o | addy o | addz o | abx | aby | abz
  | tsx | tsy | tsz | txs | tys | tzs | ins | des | nop | jmp m => exact ⟨_, rfl, .of_mem rfl rfl⟩

/-- Every step completes, and what it leaves is steady, be it what the boundary asks for or an instruction (R315). -/
theorem step_next_steady (s : State) : ∃ t, step s = .next t ∧ Steady s t := by
  obtain ⟨t, hb, hs⟩ | ⟨-, hs⟩ := step_cases s
  · exact ⟨t, hs, State.boundaryEvent_steady hb⟩
  · obtain ⟨t, he, ht⟩ := exec_next_steady s.fetch.1 s.advanced
    exact ⟨t, hs.trans he, (advanced_steady s).trans ht⟩

/-- Settles O58: a step leaves what is steady, which is the invariant, the configuration and the bytes that are not RAM. -/
theorem stepKeepsInvariant : Obligations.StepKeepsInvariant := by
  intro s t hinv hstep
  obtain ⟨u, hu, hs⟩ := step_next_steady s
  obtain rfl : u = t := Host.Outcome.next.inj (hu.symm.trans hstep)
  exact ⟨hs.inv hinv, hs.cfg, hs.fixed⟩

end Sys2Proof.Machine

/-! ## The reset state (O56, O57) -/

namespace Sys2Proof.Machine

/-- Under the default memory map there is memory behind every address (R5). -/
theorem State.reset_read8 (p : Word) : State.reset.read8 p = State.reset.mem.read p :=
  State.read8_backed (of_decide_eq_true rfl)

/-- Every flag is set at reset (R30). -/
theorem State.reset_flag (f : Flag) : State.reset.flag f = true := resetSequence_flag State.reset f

/-- Settles O56: CCR is 0xFF, and PC is read where there is memory. -/
theorem resetState : Obligations.ResetState := by
  refine ⟨State.reset_flag, ?_, rfl⟩
  rw [State.reset_read8, State.reset_read8]
  rfl

/-- Settles O57: memory with nothing listed is canonical. -/
theorem resetInvariant : Obligations.ResetInvariant := Memory.empty_wf

end Sys2Proof.Machine

/-! ## Signed overflow (O8) -/

namespace Sys2Proof.Machine

/-- The true signed result `x` does not fit `n + 1` bits. -/
def OutOfSigned (n : Nat) (x : Int) : Prop := x < -2 ^ n ∨ 2 ^ n ≤ x

/-- A number within twice the signed range wraps to a negative one where it is negative and fits, or too large (R7). -/
theorem msb_of_wraps {n : Nat} {r : BitVec (n + 1)} {x : Int} (hr : r.toInt = x.bmod (2 ^ (n + 1)))
    (hlo : -2 ^ (n + 1) ≤ x) (hhi : x < 2 ^ (n + 1)) : r.msb = decide (-2 ^ n ≤ x ∧ x < 0 ∨ 2 ^ n ≤ x) := by
  have hsign := Int.bmod_neg_iff (m := 2 ^ (n + 1)) (x := x) (by push_cast; exact hlo) (by push_cast; exact hhi)
  rw [BitVec.msb_eq_toInt, decide_eq_decide, hr, hsign]
  push_cast
  omega

/-- The signed numbers of `n + 1` bits (R7). -/
theorem toInt_range {n : Nat} (p : BitVec (n + 1)) : -2 ^ n ≤ p.toInt ∧ p.toInt < 2 ^ n :=
  ⟨BitVec.le_toInt p, BitVec.toInt_lt⟩

/-- The value of an addition as a signed number, wrapped (R113, R115). -/
theorem addAlu_value_toInt {w : Nat} (p q : BitVec w) (cin : Bool) :
    (addAlu p q cin).value.toInt = (p.toInt + q.toInt + cin.toNat).bmod (2 ^ w) := by
  rw [addAlu_value, BitVec.toInt_add, BitVec.toInt_add, BitVec.toInt_ofNat', Int.bmod_add_bmod, Int.add_bmod_bmod]

/-- The value of a subtraction as a signed number, wrapped (R114, R116). -/
theorem subAlu_value_toInt {w : Nat} (p q : BitVec w) (bin : Bool) :
    (subAlu p q bin).value.toInt = (p.toInt - q.toInt - bin.toNat).bmod (2 ^ w) := by
  rw [subAlu, BitVec.toInt_sub, BitVec.toInt_sub, BitVec.toInt_ofNat', Int.bmod_sub_bmod, Int.sub_bmod_bmod]

/-- V of an addition, at every width (R23, R113, R115). -/
theorem addAlu_overflow_iff {n : Nat} (p q : BitVec (n + 1)) (cin : Bool) :
    (addAlu p q cin).overflow = true ↔ OutOfSigned n (p.toInt + q.toInt + cin.toNat) := by
  obtain ⟨hp, hp'⟩ := toInt_range p
  obtain ⟨hq, hq'⟩ := toInt_range q
  have hc := cin.toNat_le
  have hr := msb_of_wraps (addAlu_value_toInt p q cin) (by omega) (by omega)
  have hv : (addAlu p q cin).overflow = ((p.msb == q.msb) && ((addAlu p q cin).value.msb != p.msb)) := rfl
  rw [hv, hr, BitVec.msb_eq_toInt (x := p), BitVec.msb_eq_toInt (x := q)]
  simp only [Bool.and_eq_true, beq_iff_eq, bne_iff_ne, ne_eq, decide_eq_decide, OutOfSigned]
  omega

/-- V of a subtraction, at every width (R23, R114, R116). -/
theorem subAlu_overflow_iff {n : Nat} (p q : BitVec (n + 1)) (bin : Bool) :
    (subAlu p q bin).overflow = true ↔ OutOfSigned n (p.toInt - q.toInt - bin.toNat) := by
  obtain ⟨hp, hp'⟩ := toInt_range p
  obtain ⟨hq, hq'⟩ := toInt_range q
  have hb := bin.toNat_le
  have hr := msb_of_wraps (subAlu_value_toInt p q bin) (by omega) (by omega)
  have hv : (subAlu p q bin).overflow = ((p.msb != q.msb) && ((subAlu p q bin).value.msb != p.msb)) := rfl
  rw [hv, hr, BitVec.msb_eq_toInt (x := p), BitVec.msb_eq_toInt (x := q)]
  simp only [Bool.and_eq_true, bne_iff_ne, ne_eq, decide_eq_decide, OutOfSigned]
  omega

theorem outOfSigned_byte {x : Int} : OutOfSigned 7 x ↔ x < -128 ∨ 127 < x := by
  unfold OutOfSigned
  omega

theorem outOfSigned_word {x : Int} : OutOfSigned 15 x ↔ x < -32768 ∨ 32767 < x := by
  unfold OutOfSigned
  omega

/-- Settles O8: the wrapped result has the wrong sign exactly where the true one does not fit, at width 8 and at width 16. -/
theorem overflowIsSigned : Obligations.OverflowIsSigned := by
  refine ⟨fun p q c => ?_, fun p q b => ?_, fun p q => ?_, fun p q => ?_⟩
  · exact (addAlu_overflow_iff p q c).trans outOfSigned_byte
  · exact (subAlu_overflow_iff p q b).trans outOfSigned_byte
  · simpa using (addAlu_overflow_iff p q false).trans outOfSigned_word
  · simpa using (subAlu_overflow_iff p q false).trans outOfSigned_word

end Sys2Proof.Machine

/-! ## Who writes the flags S, X, H and I (O29, O30) -/

namespace Sys2Proof.Machine

/-- From `s` to `t`, no flag but N, Z, V and C has changed, nor has the configuration. -/
structure OnlyNZVC (s t : State) : Prop where
  flags : ∀ f, f ∉ [Flag.N, .Z, .V, .C] → t.flag f = s.flag f
  cfg : t.cfg = s.cfg

namespace OnlyNZVC

variable {s t u : State}

/-- Whatever else was written, CCR and the configuration were not. -/
theorem of_ccr (h : t.ccr = s.ccr := by rfl) (c : t.cfg = s.cfg := by rfl) : OnlyNZVC s t :=
  ⟨fun f _ => by rw [State.flag, h, State.flag], c⟩

theorem of_flags (h : ∀ f, t.flag f = s.flag f) (c : t.cfg = s.cfg) : OnlyNZVC s t := ⟨fun f _ => h f, c⟩

/-- A further update whose frame allows no flag but these. -/
theorem kept {accs : List Acc} {iregs : List IReg} {flags : List Flag} {bytes : List Word} (h : OnlyNZVC s t)
    (k : Kept t u accs iregs flags bytes) (hf : flags ⊆ [.N, .Z, .V, .C]) : OnlyNZVC s u :=
  ⟨fun f hn => (k.flags f (fun hm => hn (hf hm))).trans (h.flags f hn), k.cfg.trans h.cfg⟩

theorem setFlag (h : OnlyNZVC s t) {f : Flag} (hf : f ∈ [Flag.N, .Z, .V, .C]) (v : Bool) : OnlyNZVC s (t.setFlag f v) :=
  h.kept (t.setFlag_kept f v) (by simpa using hf)

theorem setNZ0 {w : Nat} (h : OnlyNZVC s t) (r : BitVec w) : OnlyNZVC s (t.setNZ0 r) :=
  h.kept (t.setNZ0_kept r) (by simp)

theorem setNZV {w : Nat} (h : OnlyNZVC s t) (r : BitVec w) (v : Bool) : OnlyNZVC s (t.setNZV r v) :=
  h.kept (t.setNZV_kept r v) (by simp)

theorem setNZVC {w : Nat} (h : OnlyNZVC s t) (r : BitVec w) (v c : Bool) : OnlyNZVC s (t.setNZVC r v c) :=
  h.kept (t.setNZVC_kept r v c) (by simp)

theorem setAlu {w : Nat} (h : OnlyNZVC s t) (r : Alu w) : OnlyNZVC s (t.setAlu r) :=
  h.kept (t.setAlu_kept r) (by simp)

end OnlyNZVC

/-- What `i` may do to the flags S, X, H and I between `s` and `t`, unless it loads CCR as a whole: S and X are kept, H changes
only in an instruction of `H_WRITERS`, I is cleared by CLI alone (R17 to R20; D10). -/
structure GuardsFlags (i : Instr) (s t : State) : Prop where
  flagS : t.flag .S = s.flag .S
  flagX : t.flag .X = s.flag .X
  flagH : t.flag .H ≠ s.flag .H → ∃ w ∈ s.cfg.hWriters, i.hWriter = some w
  flagI : s.flag .I = true → t.flag .I = false → i = .cli

namespace GuardsFlags

variable {i : Instr} {s t : State}

theorem of_only (h : OnlyNZVC s t) : GuardsFlags i s t where
  flagS := h.flags .S (by decide)
  flagX := h.flags .X (by decide)
  flagH := fun hne => absurd (h.flags .H (by decide)) hne
  flagI := fun hs ht => by simp [h.flags .I (by decide), hs] at ht

/-- H written last, by an instruction that `H_WRITERS` can have (R19; D10). -/
theorem setHalf (h : OnlyNZVC s t) {w : Config.HWriter} (hw : i.hWriter = some w) (v : Bool) :
    GuardsFlags i s (t.setHalf w v) := by
  have hflag (g : Flag) := t.setHalf_flag w v g
  refine ⟨?_, ?_, fun hne => ?_, fun hs ht => ?_⟩
  · simpa [hflag] using h.flags .S (by decide)
  · simpa [hflag] using h.flags .X (by decide)
  · by_cases hm : w ∈ t.cfg.hWriters
    · exact ⟨w, h.cfg ▸ hm, hw⟩
    · simp [hflag, hm, h.flags .H (by decide)] at hne
  · simp [hflag, h.flags .I (by decide), hs] at ht

/-- I alone written: set by anything, cleared by CLI (R20). -/
theorem of_mask {v : Bool} (h : ∀ f, t.flag f = if f = .I then v else s.flag f) (hv : v = false → i = .cli) :
    GuardsFlags i s t where
  flagS := h .S
  flagX := h .X
  flagH := fun hne => absurd (h .H) hne
  flagI := fun _ ht => hv ((h .I).symm.trans ht)

end GuardsFlags

/-- Every instruction completes and guards these flags, but for TAP and RTI. The instructions are grouped by the flags they
write last; what they do before leaves CCR and the configuration. -/
theorem exec_guardsFlags (i : Instr) (s : State) :
    ∃ t, exec i s = .next t ∧ (GuardsFlags i s t ∨ i = .tap ∨ i = .rti) := by
  cases i with
  | tap => exact ⟨_, rfl, .inr (.inl rfl)⟩
  | rti => exact ⟨_, rfl, .inr (.inr rfl)⟩
  -- I
  | cli => exact ⟨_, rfl, .inl (.of_mask (s.setFlag_flag .I · false) fun _ => rfl)⟩
  | sei => exact ⟨_, rfl, .inl (.of_mask (s.setFlag_flag .I · true) nofun)⟩
  | swi | idiv | fdiv | unrecognised =>
    exact ⟨_, rfl, .inl (.of_mask (interruptEntry_flag s _ _) nofun)⟩
  -- no flag
  | psha | pshb | pshh | pshl | pula | pulb | pulh | pull | tpa | pshx | pshy | pshz | pulx | puly | pulz
  | xgdx | xgdy | xgdz | xgex | xgey | xgez | addx o | addy o | addz o | abx | aby | abz | tsx | tsy | tsz | txs | tys | tzs
  | ins | des | nop | jmp m | jsr m | rts | bsr off | wai => exact ⟨_, rfl, .inl (.of_only .of_ccr)⟩
  | bra off | brset m mask off | brclr m mask off | bmi off | bpl off | beq off | bne off | bcs off | bcc off
  | bvs off | bvc off | bgt off | blt off | bge off | ble off | bhi off | blo off | bhs off | bls off =>
    exact ⟨_, rfl, .inl (.of_only (.of_flags (branchIf_flag _ off s) (branchIf_steady _ off s).cfg))⟩
  | stop => exact ⟨_, rfl, .inl (.of_only (.of_flags (stop_flag s) (stop_steady s).cfg))⟩
  -- one of V and C
  | clc | sec | clv | sev => exact ⟨_, rfl, .inl (.of_only (.setFlag .of_ccr (by decide) _))⟩
  -- N Z 0 -
  | ldaa o | ldab o | ldah o | ldal o | staa m | stab m | stah m | stal m | tab | tba | thl | tlh | ldd o | lde o
  | std m | ste m | xgde | ldx o | ldy o | ldz o | stx m | sty m | stz m | lds o | sts m =>
    exact ⟨_, rfl, .inl (.of_only (.setNZ0 .of_ccr _))⟩
  -- N Z 0 - and H
  | anda o | andb o | andh o | andl o | oraa o | orab o | orah o | oral o | eora o | eorb o | eorh o | eorl o
  | bita o | bitb o | bith o | bitl o | bset m mask | bclr m mask =>
    exact ⟨_, rfl, .inl (.setHalf (.setNZ0 .of_ccr _) rfl _)⟩
  -- N Z V - and H
  | inc m | inca | incb | inch | incl | dec m | deca | decb | dech | decl =>
    exact ⟨_, rfl, .inl (.setHalf (.setNZV .of_ccr _ _) rfl _)⟩
  -- N Z V C and H
  | adda o | addb o | addh o | addl o | adca o | adcb o | adch o | adcl o | aba | alh
  | suba o | subb o | subh o | subl o | sbca o | sbcb o | sbch o | sbcl o | sba | slh
  | cmpa o | cmpb o | cmph o | cmpl o | cba | clh
  | neg m | nega | negb | negh | negl | com m | coma | comb | comh | coml | lsr m | lsra | lsrb | lsrh | lsrl
  | asl m | asla | aslb | aslh | asll | asr m | asra | asrb | asrh | asrl | ror m | rora | rorb | rorh | rorl
  | rol m | rola | rolb | rolh | roll | clr m | clra | clrb | clrh | clrl | tst m | tsta | tstb | tsth | tstl
  | addd o | adde o | aed | subd o | sube o | sed | cmpd o | cmpe o | ced | cpx o | cpy o | cpz o
  | lsrd | lsre | asrd | asre | asld | asle =>
    exact ⟨_, rfl, .inl (.setHalf (.setAlu .of_ccr _) rfl _)⟩
  | sxtb | sxtl | daa => exact ⟨_, rfl, .inl (.setHalf (.setNZVC .of_ccr _ _ _) rfl _)⟩
  -- one of Z and C, and H
  | mul | med | inx | iny | inz | dex | dey | dez =>
    exact ⟨_, rfl, .inl (.setHalf (.setFlag .of_ccr (by decide) _) rfl _)⟩

/-- What an instruction may do to these flags, from its answer. -/
theorem exec_next_guardsFlags {i : Instr} {s t : State} (h : exec i s = .next t) :
    GuardsFlags i s t ∨ i = .tap ∨ i = .rti := by
  obtain ⟨u, hu, hg⟩ := exec_guardsFlags i s
  obtain rfl : u = t := Host.Outcome.next.inj (hu.symm.trans h)
  exact hg

/-- Settles O29: but for TAP and RTI every instruction guards the special flags. -/
theorem specialFlagWriters : Obligations.SpecialFlagWriters := by
  intro i s t h
  obtain hg | htap | hrti := exec_next_guardsFlags h
  · exact ⟨fun hne => (hne.elim (· hg.flagS) (· hg.flagX)).elim, fun hne => .inr (.inr (hg.flagH hne))⟩
  · exact ⟨fun _ => .inl htap, fun _ => .inl htap⟩
  · exact ⟨fun _ => .inr hrti, fun _ => .inr (.inl hrti)⟩

/-- What stands in place of an instruction leaves I or sets it (R304, R316, R341). -/
theorem State.boundaryEvent_keeps_mask {s t : State} (h : s.boundaryEvent = some t) (hI : s.flag .I = true) :
    t.flag .I = true := by
  obtain ⟨-, rfl⟩ | ⟨-, -, rfl⟩ | ⟨-, -, -, rfl⟩ | ⟨-, -, -, rfl⟩ := State.boundaryEvent_cases h
  · exact resetSequence_flag _ .I
  · exact hI
  · exact State.enterAt_flag _ _ .I
  · exact interruptEntry_flag _ _ _ .I

/-- Settles O30: the step is an instruction, for the boundary never clears I, and of the others only CLI does. -/
theorem maskClearedOnlyBy : Obligations.MaskClearedOnlyBy := by
  intro s t hstep hs ht
  obtain ⟨u, hb, hu⟩ | ⟨hb, hexec⟩ := step_cases s
  · obtain rfl : u = t := Host.Outcome.next.inj (hu.symm.trans hstep)
    simp [State.boundaryEvent_keeps_mask hb hs] at ht
  · obtain ⟨-, hrun, -⟩ := State.boundaryEvent_none.mp hb
    obtain hg | htap | hrti := exec_next_guardsFlags (hexec.symm.trans hstep)
    · exact ⟨hrun, .inl (hg.flagI hs ht)⟩
    · exact ⟨hrun, .inr (.inl htap)⟩
    · exact ⟨hrun, .inr (.inr hrti)⟩

end Sys2Proof.Machine

/-! ## The memory primitives (O7) -/

namespace Sys2Proof.Machine

/-- Everything `MemWrite(addr, 1, v)` does to a canonical memory (R43, R48; D7, entry 22). -/
theorem State.write8_spec {s : State} (h : s.Inv) (p : Word) (v : Byte) :
    (s.write8 p v).Inv ∧ Stored s (s.write8 p v) p v ∧ Kept s (s.write8 p v) [] [] [] [p] ∧
      (s.writable p = true → (s.write8 p v).read8 p = v) :=
  have hstored := State.write8_stored h p v
  ⟨Memory.store_wf h, hstored, s.write8_kept p v, hstored.read8 rfl⟩

/-- Everything `MemWrite(addr, 2, v)` does to a canonical memory, the high byte at `addr` (R42, R43, R48; D7, entry 22). -/
theorem State.write16_spec {s : State} (h : s.Inv) (p v : Word) :
    (s.write16 p v).Inv ∧ Stored s (s.write16 p v) p (hiByte v) ∧ Stored s (s.write16 p v) (p + 1) (loByte v) ∧
      Kept s (s.write16 p v) [] [] [] (wordAt p) ∧
      (s.writable p = true → s.writable (p + 1) = true → (s.write16 p v).read16 p = v) :=
  ⟨Memory.store16_wf h, State.write16_hi h p v, State.write16_lo h p v, s.write16_kept p v,
    State.read16_write16 h p v⟩

/-- Settles O7: a word is read as the join of its two bytes, and each write is what the laws of memory say of it. -/
theorem memoryPrimitives : Obligations.MemoryPrimitives := by
  intro s p
  exact ⟨rfl, State.read8_backed, fun hinv v => State.write8_spec hinv p v, fun hinv v => State.write16_spec hinv p v⟩

end Sys2Proof.Machine

/-! ## No state stops the machine (O59) -/

namespace Sys2Proof.Machine

/-- Settles O59: a step is what the boundary asks for, which is a next state, or an instruction, and every instruction
completes. -/
theorem stepAlwaysContinues : Obligations.StepAlwaysContinues := by
  intro s
  obtain ⟨t, -, hstep⟩ | ⟨-, hstep⟩ := step_cases s
  · exact ⟨t, hstep⟩
  · obtain ⟨t, hexec, -⟩ := exec_next_steady s.fetch.1 s.advanced
    exact ⟨t, hstep.trans hexec⟩

end Sys2Proof.Machine

/-! ## The byte level: what the decoder and the encoder do with every instruction (O1 to O5) -/

namespace Sys2Proof.Laws.OperandBytes

/-- Every instruction's operand bytes read back as its operands: the lemmas of the family, one for each constructor (R72). -/
theorem holds (i : Instr) : Statement i :=
  Instr.casesOn i
    ldaa ldab ldah ldal staa stab stah stal tab tba thl tlh psha pshb pshh pshl pula pulb pulh pull adda addb addh
    addl adca adcb adch adcl suba subb subh subl sbca sbcb sbch sbcl cmpa cmpb cmph cmpl bita bitb bith bitl anda andb
    andh andl oraa orab orah oral eora eorb eorh eorl inc inca incb inch incl dec deca decb dech decl neg nega negb
    negh negl com coma comb comh coml clr clra clrb clrh clrl bset bclr tst tsta tstb tsth tstl lsr lsra lsrb lsrh
    lsrl asl asla aslb aslh asll asr asra asrb asrh asrl ror rora rorb rorh rorl rol rola rolb rolh roll aba alh sba
    slh cba clh sxtb sxtl mul daa clc sec clv sev tap tpa ldd lde std ste xgde addd adde subd sube cmpd cmpe aed sed
    ced med lsrd lsre asrd asre asld asle idiv fdiv ldx ldy ldz stx sty stz pshx pshy pshz pulx puly pulz xgdx xgdy
    xgdz xgex xgey xgez cpx cpy cpz inx iny inz dex dey dez addx addy addz abx aby abz lds sts tsx tsy tsz txs tys tzs
    ins des nop jmp jsr rts bsr bra brset brclr bmi bpl beq bne bcs bcc bvs bvc bgt blt bge ble bhi blo bhs bls cli
    sei swi wai rti stop unrecognised

end Sys2Proof.Laws.OperandBytes

namespace Sys2Proof.Laws.CodeFound

/-- The known code of every instruction is found by the decoder: the lemmas of the family, one for each constructor
(R91 to R95). -/
theorem holds (i : Instr) : Statement i :=
  Instr.casesOn i
    ldaa ldab ldah ldal staa stab stah stal tab tba thl tlh psha pshb pshh pshl pula pulb pulh pull adda addb addh
    addl adca adcb adch adcl suba subb subh subl sbca sbcb sbch sbcl cmpa cmpb cmph cmpl bita bitb bith bitl anda andb
    andh andl oraa orab orah oral eora eorb eorh eorl inc inca incb inch incl dec deca decb dech decl neg nega negb
    negh negl com coma comb comh coml clr clra clrb clrh clrl bset bclr tst tsta tstb tsth tstl lsr lsra lsrb lsrh
    lsrl asl asla aslb aslh asll asr asra asrb asrh asrl ror rora rorb rorh rorl rol rola rolb rolh roll aba alh sba
    slh cba clh sxtb sxtl mul daa clc sec clv sev tap tpa ldd lde std ste xgde addd adde subd sube cmpd cmpe aed sed
    ced med lsrd lsre asrd asre asld asle idiv fdiv ldx ldy ldz stx sty stz pshx pshy pshz pulx puly pulz xgdx xgdy
    xgdz xgex xgey xgez cpx cpy cpz inx iny inz dex dey dez addx addy addz abx aby abz lds sts tsx tsy tsz txs tys tzs
    ins des nop jmp jsr rts bsr bra brset brclr bmi bpl beq bne bcs bcc bvs bvc bgt blt bge ble bhi blo bhs bls cli
    sei swi wai rti stop unrecognised

end Sys2Proof.Laws.CodeFound

namespace Sys2Proof

/-! What an instruction's code reads as (R90; U15, entry 32). -/

theorem Instr.canonical_fill (i : Instr) (f : Nat → Byte) : (i.fill f).canonical = i.canonical.fill f := by
  cases i <;> rfl

theorem Instr.canonical_operandLen (i : Instr) : i.canonical.operandLen = i.operandLen := by
  cases i <;> rfl

/-- Only BLO and BHS share a code, and theirs are known. -/
theorem Instr.canonical_of_no_known_code {i : Instr} (h : i.opcodeBytes = none) : i.canonical = i := by
  cases i with
  | blo off | bhs off => cases h
  | _ => rfl

theorem Instr.readAs_fill (i : Instr) (f : Nat → Byte) (c : Config.Opc) : (i.fill f).readAs c = (i.readAs c).fill f := by
  cases c with
  | m68hc11 => exact i.canonical_fill f
  | table rows => simp only [Instr.readAs, i.form_fill, i.canonical_fill, apply_ite (Instr.fill · f)]

/-- The opcode is that of the form: no operand value enters it (R71). -/
theorem Instr.code_fill (i : Instr) (f : Nat → Byte) (c : Config.Opc) : (i.fill f).code c = i.code c := by
  cases c with
  | m68hc11 => simp only [Instr.code, i.opcodeBytes_fill, i.form_fill]
  | table rows => simp only [Instr.code, i.readAs_fill, Instr.form_fill]

/-! What `encode` writes, and what `withOperands` reads (R70, R72). -/

theorem encode_eq_some {c : Config.Opc} {i : Instr} {bs : List Byte} :
    encode c i = some bs ↔ ∃ b, i.code c = some b ∧ b ++ i.operandBytes = bs := by
  simp [encode]

/-- The operand bytes of an instruction, behind an opcode, read back as the instruction. -/
theorem withOperands_self {i : Instr} {n : Nat} {rd : Nat → Byte}
    (h : StartsWith (fun k => rd (n + k)) i.operandBytes) : withOperands i n rd = (i, n + i.operandBytes.length) := by
  obtain ⟨hlen, hfill⟩ := Laws.OperandBytes.holds i
  rw [withOperands, hfill _ h, hlen]

/-- The operand bytes of what `withOperands` reads are those it read, and as many as its length counts. -/
theorem withOperands_operandBytes (t : Instr) (n : Nat) (rd : Nat → Byte) :
    StartsWith (fun k => rd (n + k)) (withOperands t n rd).1.operandBytes ∧
      (withOperands t n rd).2 = n + (withOperands t n rd).1.operandBytes.length := by
  obtain ⟨hlen, -⟩ := Laws.OperandBytes.holds (withOperands t n rd).1
  exact ⟨t.operandBytes_fill _, by rw [hlen, withOperands, t.operandLen_fill]⟩

theorem form_withOperands (t : Instr) (n : Nat) (rd : Nat → Byte) : (withOperands t n rd).1.form = t.form :=
  t.form_fill _

/-- What is left of the length without the operand bytes is the opcode. -/
theorem withOperands_opcodeLen (t : Instr) (n : Nat) (rd : Nat → Byte) :
    (withOperands t n rd).2 - (withOperands t n rd).1.operandLen = n := by
  simp [withOperands, t.operandLen_fill]

/-! ## The opcode decides (O2, O4) -/

/-- A known code, at the start of the bytes, selects what it stands for (R71, R91 to R95). -/
theorem decode_knownCode {i : Instr} {b : List Byte} {rd : Nat → Byte} (hb : i.opcodeBytes = some b)
    (hs : StartsWith rd b) : decode .m68hc11 rd = withOperands i.canonical b.length rd := by
  obtain ⟨t, hknown, hfill, hlen⟩ := Laws.CodeFound.holds i rd b hb hs
  rw [decode_known hknown, withOperands, withOperands, hfill, hlen, i.canonical_operandLen]

/-- The opcode of an instruction, at the start of the bytes, selects what it stands for under every `OPC`: a known code, an
open one, or a row of another table (R70, R71). -/
theorem decode_of_code {c : Config.Opc} {i : Instr} {b : List Byte} {rd : Nat → Byte} (hb : i.code c = some b)
    (hs : StartsWith rd b) : decode c rd = withOperands (i.readAs c) b.length rd := by
  cases c with
  | table rows => exact decode_own hb hs
  | m68hc11 =>
    cases hk : i.opcodeBytes with
    | some b' =>
      obtain rfl : b' = b := by simpa [Instr.code, hk] using hb
      exact decode_knownCode hk hs
    | none =>
      have hcan : i.readAs .m68hc11 = i := Instr.canonical_of_no_known_code hk
      rw [hcan]
      exact decode_open hk hb hs

/-- Settles O2: the opcode selects the form, and the operand bytes behind it read back as the operands. -/
theorem encodeThenDecode : Obligations.EncodeThenDecode := by
  intro c i bs rd _ henc hs
  obtain ⟨b, hb, rfl⟩ := encode_eq_some.mp henc
  obtain ⟨hopcode, hoperands⟩ := (startsWith_append rd b _).mp hs
  rw [← i.operandBytes_readAs c] at hoperands
  rw [decode_of_code hb hopcode, withOperands_self hoperands, List.length_append, i.operandBytes_readAs]

/-- Settles O4: bytes that are recognised begin with the opcode of a form, and so do all that agree with them on it. -/
theorem opcodeDecides : Obligations.OpcodeDecides := by
  intro c rd rd' hrec hagree
  obtain ⟨t, b, hcode, -, -, hs, -⟩ | hun := decode_cases c rd
  · rw [decode_of_code hcode hs, withOperands_opcodeLen] at hagree
    have hs' : StartsWith rd' b := fun k hk => (hagree k hk).trans (hs k hk)
    rw [decode_of_code hcode hs, decode_of_code hcode hs', form_withOperands, form_withOperands]
    exact ⟨rfl, rfl⟩
  · exact absurd (congrArg Prod.fst hun) hrec

/-! ## What bytes decode to (O3, O5) -/

/-- Settles O3: what was read is the opcode of a form, which is that of the instruction, and its operand bytes. -/
theorem decodeThenEncode : Obligations.DecodeThenEncode := by
  intro c rd hrec
  obtain ⟨t, b, hcode, -, -, hs, hdec⟩ | hun := decode_cases c rd
  · rw [hdec]
    obtain ⟨hoperands, hlen⟩ := withOperands_operandBytes t b.length rd
    have hcode' : (withOperands t b.length rd).1.code c = some b := (t.code_fill _ c).trans hcode
    exact ⟨_, encode_eq_some.mpr ⟨b, hcode', rfl⟩, (startsWith_append rd b _).mpr ⟨hs, hoperands⟩,
      hlen.trans List.length_append.symm⟩
  · exact absurd (congrArg Prod.fst hun) hrec

/-- Settles O5: a recognised form is one of Table 1 whatever its operands, behind an opcode of at least one byte. -/
theorem decodeIsTotal : Obligations.DecodeIsTotal := by
  intro c rd
  obtain ⟨t, b, -, hwf, hlen, -, hdec⟩ | hun := decode_cases c rd
  · rw [hdec]
    exact ⟨.inl ((t.wellFormed_fill _).trans hwf), hlen.trans (Nat.le_add_right _ _)⟩
  · rw [hun]
    exact ⟨.inr rfl, Nat.le_add_right _ _⟩

/-- Settles O1: fourteen fixed words, each decoded by evaluation; neither the open codes nor the length of an unrecognised
code enters. -/
theorem decodeKnownWords : Obligations.DecodeKnownWords := by
  unfold Obligations.DecodeKnownWords
  decide

end Sys2Proof

/-! ## A step runs the instruction at PC (O60) -/

namespace Sys2Proof.Machine

/-- No interrupt is accepted where none is requested or I is set (R302, R303). -/
theorem State.acceptsIrq_eq_false {s : State} : s.acceptsIrq = false ↔ s.input.irq = false ∨ s.flag .I = true := by
  cases hi : s.input.irq <;> simp [State.acceptsIrq, hi]

/-- Settles O60: nothing happens at the boundary, and what is fetched is what the bytes at PC decode to. -/
theorem stepRunsDecoded : Obligations.StepRunsDecoded := by
  intro s i n hreset hrun hirq hdec
  have hnone : s.boundaryEvent = none :=
    State.boundaryEvent_none.mpr ⟨hreset, hrun, State.acceptsIrq_eq_false.mpr hirq⟩
  have hfetch : s.fetch = (i, n) := hdec
  have hadv : s.advanced = s.movedPast n i.operandLen := by rw [State.advanced, hfetch]
  obtain ⟨t, hsome, -⟩ | ⟨-, hstep⟩ := step_cases s
  · cases hnone.symm.trans hsome
  · rw [hstep, hfetch, hadv]
    rfl

end Sys2Proof.Machine

/-! ## Shifts and rotates of a byte (O21) -/

namespace Sys2Proof.Machine

/-! The table of R118 bit by bit: the bit that enters at one end, and the other bits moved by one place; at every width. -/

/-- The carry as a number has one bit at most. -/
theorem ofNat_carry_getLsbD {n : Nat} (b : Bool) (i : Nat) :
    (BitVec.ofNat (n + 1) b.toNat).getLsbD i = (decide (i = 0) && b) := by
  cases b <;> simp [BitVec.getLsbD_one]

theorem getLsbD_cons_high {n i : Nat} (v : BitVec (n + 1)) (b : Bool) (hi : i < n + 1) :
    (BitVec.cons b (v.extractLsb' 1 n)).getLsbD i = if i = n then b else v.getLsbD (1 + i) := by
  have hlt : i ≠ n → i < n := by omega
  rw [BitVec.getLsbD_cons, BitVec.getLsbD_extractLsb']
  split <;> simp_all

theorem getLsbD_concat_low {n i : Nat} (v : BitVec (n + 1)) (b : Bool) (hi : i < n + 1) :
    (BitVec.concat (v.extractLsb' 0 n) b).getLsbD i = if i = 0 then b else v.getLsbD (i - 1) := by
  have hlt : i ≠ 0 → i - 1 < n := by omega
  rw [BitVec.getLsbD_concat, BitVec.getLsbD_extractLsb', Nat.zero_add]
  split <;> simp_all

theorem ushiftRight_one_or_carry {n : Nat} (v : BitVec (n + 1)) (b : Bool) :
    v >>> 1 ||| BitVec.ofNat (n + 1) b.toNat <<< n = BitVec.cons b (v.extractLsb' 1 n) := by
  apply BitVec.eq_of_getLsbD_eq
  intro i hi
  rw [getLsbD_cons_high v b hi, BitVec.getLsbD_or, BitVec.getLsbD_ushiftRight, BitVec.getLsbD_shiftLeft,
    ofNat_carry_getLsbD]
  by_cases htop : i = n
  · simp [htop, Nat.add_comm]
  · simp [htop, show i < n by omega]

theorem shiftLeft_one_or_carry {n : Nat} (v : BitVec (n + 1)) (b : Bool) :
    v <<< 1 ||| BitVec.ofNat (n + 1) b.toNat = BitVec.concat (v.extractLsb' 0 n) b := by
  apply BitVec.eq_of_getLsbD_eq
  intro i hi
  rw [getLsbD_concat_low v b hi, BitVec.getLsbD_or, BitVec.getLsbD_shiftLeft, ofNat_carry_getLsbD]
  cases i with
  | zero => simp
  | succ i => simp [hi]

theorem sshiftRight_one {n : Nat} (v : BitVec (n + 1)) :
    v.sshiftRight 1 = BitVec.cons v.msb (v.extractLsb' 1 n) := by
  apply BitVec.eq_of_getLsbD_eq
  intro i hi
  rw [getLsbD_cons_high v v.msb hi, BitVec.getLsbD_sshiftRight]
  by_cases htop : i = n
  · simp [htop, Nat.add_comm]
  · simp [htop, show 1 + i < n + 1 by omega, show ¬ n + 1 ≤ i by omega]

theorem lsrAlu_eq {n : Nat} (v : BitVec (n + 1)) :
    lsrAlu v = shiftAlu (BitVec.cons false (v.extractLsb' 1 n)) (v.getLsbD 0) := by
  simp [lsrAlu, ← ushiftRight_one_or_carry]

theorem asrAlu_eq {n : Nat} (v : BitVec (n + 1)) :
    asrAlu v = shiftAlu (BitVec.cons v.msb (v.extractLsb' 1 n)) (v.getLsbD 0) := by
  rw [asrAlu, sshiftRight_one]

theorem aslAlu_eq {n : Nat} (v : BitVec (n + 1)) :
    aslAlu v = shiftAlu (BitVec.concat (v.extractLsb' 0 n) false) (v.getLsbD n) := by
  simp [aslAlu, ← shiftLeft_one_or_carry, BitVec.msb_eq_getLsbD_last]

theorem rorAlu_eq (v : Byte) (cin : Bool) :
    rorAlu v cin = shiftAlu (BitVec.cons cin (v.extractLsb' 1 7)) (v.getLsbD 0) := by
  rw [rorAlu, ushiftRight_one_or_carry]

theorem rolAlu_eq (v : Byte) (cin : Bool) :
    rolAlu v cin = shiftAlu (BitVec.concat (v.extractLsb' 0 7) cin) (v.getLsbD 7) := by
  rw [rolAlu, shiftLeft_one_or_carry, BitVec.msb_eq_getLsbD_last]

/-! An operand's shift runs the in-place shape on it, whichever instruction the operand selects (R155 to R159). -/

theorem exec_lsrOper (g : Target8) (s : State) :
    exec (Instr.lsrOper g) s = .next ((modify8 g lsrAlu State.setAlu s).freeHalf (.lsr g.acc?)) := by
  cases g with
  | acc a => cases a <;> rfl
  | mem m => rfl

theorem exec_asrOper (g : Target8) (s : State) :
    exec (Instr.asrOper g) s = .next ((modify8 g asrAlu State.setAlu s).freeHalf (.asr g.acc?)) := by
  cases g with
  | acc a => cases a <;> rfl
  | mem m => rfl

theorem exec_aslOper (g : Target8) (s : State) :
    exec (Instr.aslOper g) s = .next ((modify8 g aslAlu State.setAlu s).freeHalf (.asl g.acc?)) := by
  cases g with
  | acc a => cases a <;> rfl
  | mem m => rfl

theorem exec_rorOper (g : Target8) (s : State) :
    exec (Instr.rorOper g) s =
      .next ((modify8 g (fun v => rorAlu v (s.flag .C)) State.setAlu s).freeHalf (.ror g.acc?)) := by
  cases g with
  | acc a => cases a <;> rfl
  | mem m => rfl

theorem exec_rolOper (g : Target8) (s : State) :
    exec (Instr.rolOper g) s =
      .next ((modify8 g (fun v => rolAlu v (s.flag .C)) State.setAlu s).freeHalf (.rol g.acc?)) := by
  cases g with
  | acc a => cases a <;> rfl
  | mem m => rfl

/-- What a shift or rotate of a byte does: it runs the in-place shape with `f`, which gives the result `r` and shifts the bit
`out` out (R108, R118). -/
theorem exec_shift8 {i : Instr} {g : Target8} {s : State} {f : Byte → Alu 8} {w : Config.HWriter} {r : Byte} {out : Bool}
    (h : s.Inv) (hexec : exec i s = .next ((modify8 g f State.setAlu s).freeHalf w))
    (hf : f (readTarget g s) = shiftAlu r out) :
    ∃ t, exec i s = .next t ∧ Takes g s t r ∧ ShiftFlags t r out ∧
      Kept s t g.accs [] (s.writes w [.N, .Z, .V, .C]) (g.bytes s) ∧ Falls s t := by
  obtain ⟨htakes, hnz, hv, hc, hkept, hfalls⟩ := modify8_nzvc h g f
  rw [hf] at htakes hnz hv hc
  have hflags : ShiftFlags (modify8 g f State.setAlu s) r out := ⟨hnz, hv, hc⟩
  exact ⟨_, hexec, htakes.freeHalf w, hflags.freeHalf w, hkept.freeHalf w, hfalls.freeHalf w⟩

/-- Settles O21: each of the five runs the in-place shape, and what it computes is its row of the table of R118. -/
theorem shiftRotate : Obligations.ShiftRotate := by
  intro g s hinv i w r out hrow
  simp only [List.mem_cons, Prod.mk.injEq, List.not_mem_nil, or_false] at hrow
  obtain ⟨rfl, rfl, rfl, rfl⟩ | ⟨rfl, rfl, rfl, rfl⟩ | ⟨rfl, rfl, rfl, rfl⟩ | ⟨rfl, rfl, rfl, rfl⟩ |
    ⟨rfl, rfl, rfl, rfl⟩ := hrow
  · exact exec_shift8 hinv (exec_lsrOper g s) (lsrAlu_eq _)
  · exact exec_shift8 hinv (exec_asrOper g s) (asrAlu_eq _)
  · exact exec_shift8 hinv (exec_aslOper g s) (aslAlu_eq _)
  · exact exec_shift8 hinv (exec_rorOper g s) (rorAlu_eq _ _)
  · exact exec_shift8 hinv (exec_rolOper g s) (rolAlu_eq _ _)

end Sys2Proof.Machine

/-! ## Loads, stores, transfers and the stack (O9 to O13) -/

namespace Sys2Proof.Machine

/-! The shape that each mnemonic of a register template runs (R130, R131, R136, R137, R212, R213). -/

theorem exec_lda (a : Acc) (o : Src8) (s : State) : exec (Instr.lda a o) s = .next (load8 a o s) := by
  cases a <;> rfl

theorem exec_sta (a : Acc) (m : MemOp) (s : State) : exec (Instr.sta a m) s = .next (store8 a m s) := by
  cases a <;> rfl

theorem exec_psh (a : Acc) (s : State) : exec (Instr.psh a) s = .next (s.push8 (s.acc a)) := by
  cases a <;> rfl

theorem exec_pshIndex (r : IReg) (s : State) : exec (Instr.pshIndex r) s = .next (s.push16 (s.ireg r)) := by
  cases r <;> rfl

theorem exec_pul (a : Acc) (s : State) : exec (Instr.pul a) s = .next (pull8To a s) := by
  cases a <;> rfl

theorem exec_pulIndex (r : IReg) (s : State) : exec (Instr.pulIndex r) s = .next (pullIndex r s) := by
  cases r <;> rfl

/-- Settles O9: LDA is the load into its accumulator. -/
theorem loadAccumulator : Obligations.LoadAccumulator := by
  intro a o s
  exact ⟨_, exec_lda a o s, load8_spec a o s⟩

/-- Settles O10: STA is the store of its accumulator, and the invariant lets memory read it back. -/
theorem storeAccumulator : Obligations.StoreAccumulator := by
  intro a m s hinv
  exact ⟨_, exec_sta a m s, store8_spec hinv a m⟩

/-- Settles O11: each of the four is a transfer between its two accumulators. -/
theorem transferAccumulator : Obligations.TransferAccumulator := by
  intro i dst src hrow s
  simp only [List.mem_cons, Prod.mk.injEq, List.not_mem_nil, or_false] at hrow
  obtain ⟨rfl, rfl, rfl⟩ | ⟨rfl, rfl, rfl⟩ | ⟨rfl, rfl, rfl⟩ | ⟨rfl, rfl, rfl⟩ := hrow
  · exact ⟨_, rfl, transfer8_spec .B .A s⟩
  · exact ⟨_, rfl, transfer8_spec .A .B s⟩
  · exact ⟨_, rfl, transfer8_spec .L .H s⟩
  · exact ⟨_, rfl, transfer8_spec .H .L s⟩

/-- Settles O12: PSH is a push of one byte, or of the two bytes of a word. -/
theorem pushRegister : Obligations.PushRegister := by
  refine ⟨fun a s hinv => ?_, fun r s hinv => ?_⟩
  · exact ⟨_, exec_psh a s, State.push8_spec hinv (s.acc a)⟩
  · exact ⟨_, exec_pshIndex r s, State.push16_spec hinv (s.ireg r)⟩

/-- Settles O13: PUL is a pull of one byte, or of two that make a word. -/
theorem pullRegister : Obligations.PullRegister := by
  refine ⟨fun a s => ?_, fun r s => ?_⟩
  · exact ⟨_, exec_pul a s, pull8To_spec a s⟩
  · exact ⟨_, exec_pulIndex r s, pullIndex_spec r s⟩

end Sys2Proof.Machine

/-! ## Additions, subtractions and comparisons (O14 to O16) -/

namespace Sys2Proof.Machine

/-! The shape that each mnemonic of a register template runs (R138 to R142, R195, R215). -/

theorem exec_addAcc (a : Acc) (o : Src8) (s : State) :
    exec (Instr.addAcc a o) s = .next (add8To (.add a) a (oper8 o s) false s) := by
  cases a <;> rfl

theorem exec_adcAcc (a : Acc) (o : Src8) (s : State) :
    exec (Instr.adcAcc a o) s = .next (add8To (.adc a) a (oper8 o s) (s.flag .C) s) := by
  cases a <;> rfl

theorem exec_subAcc (a : Acc) (o : Src8) (s : State) :
    exec (Instr.subAcc a o) s = .next ((sub8From a (oper8 o s) false s).freeHalf (.sub a)) := by
  cases a <;> rfl

theorem exec_sbcAcc (a : Acc) (o : Src8) (s : State) :
    exec (Instr.sbcAcc a o) s = .next ((sub8From a (oper8 o s) (s.flag .C) s).freeHalf (.sbc a)) := by
  cases a <;> rfl

theorem exec_cmpAcc (a : Acc) (o : Src8) (s : State) :
    exec (Instr.cmpAcc a o) s = .next ((compare8 a (oper8 o s) s).freeHalf (.cmp a)) := by
  cases a <;> rfl

theorem exec_cmpDbl (d : Dbl) (o : Src16) (s : State) :
    exec (Instr.cmpDbl d o) s = .next ((compare16 (s.dbl d) (oper16 o s) s).freeHalf (.cmpDbl d)) := by
  cases d <;> rfl

theorem exec_cpIndex (r : IReg) (o : Src16) (s : State) :
    exec (Instr.cpIndex r o) s = .next ((compare16 (s.ireg r) (oper16 o s) s).freeHalf (.cpIndex r)) := by
  cases r <;> rfl

/-- A carry or borrow in as the byte that is added or subtracted. -/
theorem ofNat_toNat_eq_ite (c : Bool) : BitVec.ofNat 8 c.toNat = if c then 1 else 0 := by
  cases c <;> rfl

/-- `add8To_spec` without a carry in. -/
theorem add8To_noCarry (w : Config.HWriter) (a : Acc) (q : Byte) (s : State) :
    (add8To w a q false s).acc a = s.acc a + q ∧ AddFlags (add8To w a q false s) (s.acc a) q (s.acc a + q) false ∧
      (add8To w a q false s).flag .H =
        (if w ∈ s.cfg.hWriters then decide (16 ≤ (s.acc a).toNat % 16 + q.toNat % 16) else s.flag .H) ∧
      Kept s (add8To w a q false s) [a] [] [.N, .Z, .V, .C, .H] [] ∧ Falls s (add8To w a q false s) := by
  simpa using add8To_spec w a q false s

/-- Settles O14: each is the addition into its accumulator, ADC with C as the carry in and the others without one. -/
theorem addAccumulator : Obligations.AddAccumulator := by
  refine ⟨fun a o s => ?_, fun a o s => ?_, fun i w a b hrow s => ?_⟩
  · exact ⟨_, exec_addAcc a o s, add8To_noCarry (.add a) a (oper8 o s) s⟩
  · rw [← ofNat_toNat_eq_ite]
    exact ⟨_, exec_adcAcc a o s, add8To_spec (.adc a) a (oper8 o s) (s.flag .C) s⟩
  · simp only [List.mem_cons, Prod.mk.injEq, List.not_mem_nil, or_false] at hrow
    obtain ⟨rfl, rfl, rfl, rfl⟩ | ⟨rfl, rfl, rfl, rfl⟩ := hrow
    · exact ⟨_, rfl, add8To_noCarry .aba .A (s.acc .B) s⟩
    · exact ⟨_, rfl, add8To_noCarry .alh .H (s.acc .L) s⟩

section Subtract

variable {i : Instr} {s : State} {a : Acc} {q : Byte} {w : Config.HWriter}

/-- An instruction that subtracts from an accumulator with a borrow in, and leaves H free (R114, R141; D10). -/
theorem exec_subtract {bin : Bool} (hexec : exec i s = .next ((sub8From a q bin s).freeHalf w)) :
    ∃ t, exec i s = .next t ∧ t.acc a = s.acc a - q - BitVec.ofNat 8 bin.toNat ∧
      SubFlags t (s.acc a) q (s.acc a - q - BitVec.ofNat 8 bin.toNat) bin ∧
      Kept s t [a] [] (s.writes w [.N, .Z, .V, .C]) [] ∧ Falls s t := by
  obtain ⟨hacc, hflags, hkept, hfalls⟩ := sub8From_spec a q bin s
  exact ⟨_, hexec, (State.freeHalf_acc _ w a).trans hacc, hflags.freeHalf w, hkept.freeHalf w, hfalls.freeHalf w⟩

/-- The same without a borrow in (R140, R162, R163). -/
theorem exec_subtract_noBorrow (hexec : exec i s = .next ((sub8From a q false s).freeHalf w)) :
    ∃ t, exec i s = .next t ∧ t.acc a = s.acc a - q ∧ SubFlags t (s.acc a) q (s.acc a - q) false ∧
      Kept s t [a] [] (s.writes w [.N, .Z, .V, .C]) [] ∧ Falls s t := by
  simpa using exec_subtract hexec

end Subtract

/-- Settles O15: each is the subtraction from its accumulator, SBC with C as the borrow in and the others without one. -/
theorem subtractAccumulator : Obligations.SubtractAccumulator := by
  refine ⟨fun a o s => ?_, fun a o s => ?_, fun i w a b hrow s => ?_⟩
  · exact exec_subtract_noBorrow (exec_subAcc a o s)
  · rw [← ofNat_toNat_eq_ite]
    exact exec_subtract (exec_sbcAcc a o s)
  · simp only [List.mem_cons, Prod.mk.injEq, List.not_mem_nil, or_false] at hrow
    obtain ⟨rfl, rfl, rfl, rfl⟩ | ⟨rfl, rfl, rfl, rfl⟩ := hrow
    · exact exec_subtract_noBorrow rfl
    · exact exec_subtract_noBorrow rfl

/-- An instruction that sets the flags of a subtraction, of either width, and leaves H free (R142, R195, R215; D10). -/
theorem exec_compare {n : Nat} {i : Instr} {s t : State} {p q : BitVec n} {w : Config.HWriter}
    (hexec : exec i s = .next (t.freeHalf w))
    (hspec : SubFlags t p q (p - q) false ∧ Kept s t [] [] [.N, .Z, .V, .C] [] ∧ Falls s t) :
    ∃ t, exec i s = .next t ∧ SubFlags t p q (p - q) false ∧ Kept s t [] [] (s.writes w [.N, .Z, .V, .C]) [] ∧
      Falls s t := by
  obtain ⟨hflags, hkept, hfalls⟩ := hspec
  exact ⟨_, hexec, hflags.freeHalf w, hkept.freeHalf w, hfalls.freeHalf w⟩

/-- Settles O16: each of the six is the comparison at its register's width. -/
theorem compareRegister : Obligations.CompareRegister := by
  refine ⟨fun a o s => ?_, fun i w a b hrow s => ?_, fun d o s => ?_, fun s => ?_, fun r o s => ?_⟩
  · exact exec_compare (exec_cmpAcc a o s) (compare8_spec a (oper8 o s) s)
  · simp only [List.mem_cons, Prod.mk.injEq, List.not_mem_nil, or_false] at hrow
    obtain ⟨rfl, rfl, rfl, rfl⟩ | ⟨rfl, rfl, rfl, rfl⟩ := hrow
    · exact exec_compare rfl (compare8_spec .A (s.acc .B) s)
    · exact exec_compare rfl (compare8_spec .H (s.acc .L) s)
  · exact exec_compare (exec_cmpDbl d o s) (compare16_spec (s.dbl d) (oper16 o s) s)
  · exact exec_compare rfl (compare16_spec (s.dbl .D) (s.dbl .E) s)
  · exact exec_compare (exec_cpIndex r o s) (compare16_spec (s.ireg r) (oper16 o s) s)

end Sys2Proof.Machine

/-! ## Logic (O17) -/

namespace Sys2Proof.Machine

/-! The shape that each mnemonic of a register template runs (R143 to R146). -/

theorem exec_bitAcc (a : Acc) (o : Src8) (s : State) :
    exec (Instr.bitAcc a o) s = .next ((s.setNZ0 (s.acc a &&& oper8 o s)).freeHalf (.bit a)) := by
  cases a <;> rfl

theorem exec_andAcc (a : Acc) (o : Src8) (s : State) :
    exec (Instr.andAcc a o) s = .next ((logic8To a (s.acc a &&& oper8 o s) s).freeHalf (.and a)) := by
  cases a <;> rfl

theorem exec_oraAcc (a : Acc) (o : Src8) (s : State) :
    exec (Instr.oraAcc a o) s = .next ((logic8To a (s.acc a ||| oper8 o s) s).freeHalf (.ora a)) := by
  cases a <;> rfl

theorem exec_eorAcc (a : Acc) (o : Src8) (s : State) :
    exec (Instr.eorAcc a o) s = .next ((logic8To a (s.acc a ^^^ oper8 o s) s).freeHalf (.eor a)) := by
  cases a <;> rfl

/-- An instruction that puts a logic result into an accumulator and leaves H free (R144 to R146; D10). -/
theorem exec_logic {i : Instr} {s : State} {a : Acc} {r : Byte} {w : Config.HWriter}
    (hexec : exec i s = .next ((logic8To a r s).freeHalf w)) :
    ∃ t, exec i s = .next t ∧ t.acc a = r ∧ LogicFlags t r ∧ Kept s t [a] [] (s.writes w [.N, .Z, .V]) [] ∧
      Falls s t := by
  obtain ⟨hacc, hflags, hkept, hfalls⟩ := logic8To_spec a r s
  exact ⟨_, hexec, (State.freeHalf_acc _ w a).trans hacc, hflags.freeHalf w, hkept.freeHalf w, hfalls.freeHalf w⟩

/-- Settles O17: three put their result into the accumulator; BIT sets its flags alone. -/
theorem logicAccumulator : Obligations.LogicAccumulator := by
  intro a o s
  refine ⟨?_, exec_logic (exec_andAcc a o s), exec_logic (exec_oraAcc a o s), exec_logic (exec_eorAcc a o s)⟩
  have hfalls : Falls s (s.setNZ0 (s.acc a &&& oper8 o s)) := State.ccr_falls _ _
  exact ⟨_, exec_bitAcc a o s, (s.setNZ0_logic _).freeHalf _, (s.setNZ0_kept _).freeHalf _, hfalls.freeHalf _⟩

end Sys2Proof.Machine

/-! ## Operands changed in place (O18 to O20, O22) -/

namespace Sys2Proof.Machine

/-! The shape that an operand's instruction runs, whichever instruction the operand selects (R147 to R151, R154). -/

theorem exec_incOper (g : Target8) (s : State) :
    exec (Instr.incOper g) s = .next ((modify8 g incAlu State.setNZVof s).freeHalf (.inc g.acc?)) := by
  cases g with
  | acc a => cases a <;> rfl
  | mem m => rfl

theorem exec_decOper (g : Target8) (s : State) :
    exec (Instr.decOper g) s = .next ((modify8 g decAlu State.setNZVof s).freeHalf (.dec g.acc?)) := by
  cases g with
  | acc a => cases a <;> rfl
  | mem m => rfl

theorem exec_negOper (g : Target8) (s : State) :
    exec (Instr.negOper g) s = .next ((modify8 g negAlu State.setAlu s).freeHalf (.neg g.acc?)) := by
  cases g with
  | acc a => cases a <;> rfl
  | mem m => rfl

theorem exec_comOper (g : Target8) (s : State) :
    exec (Instr.comOper g) s = .next ((modify8 g comAlu State.setAlu s).freeHalf (.com g.acc?)) := by
  cases g with
  | acc a => cases a <;> rfl
  | mem m => rfl

theorem exec_clrOper (g : Target8) (s : State) :
    exec (Instr.clrOper g) s = .next ((clear8 g s).freeHalf (.clr g.acc?)) := by
  cases g with
  | acc a => cases a <;> rfl
  | mem m => rfl

theorem exec_tstOper (g : Target8) (s : State) :
    exec (Instr.tstOper g) s = .next ((test8 g s).freeHalf (.tst g.acc?)) := by
  cases g with
  | acc a => cases a <;> rfl
  | mem m => rfl

/-- An instruction that changes its operand in place with `f`, writes N, Z and V, and leaves H free (R108, R119; D10). -/
theorem exec_modifyNZV {i : Instr} {g : Target8} {s : State} {f : Byte → Alu 8} {w : Config.HWriter} (h : s.Inv)
    (hexec : exec i s = .next ((modify8 g f State.setNZVof s).freeHalf w)) :
    ∃ t, exec i s = .next t ∧ Takes g s t (f (readTarget g s)).value ∧ t.NZof (f (readTarget g s)).value ∧
      t.flag .V = (f (readTarget g s)).overflow ∧ Kept s t g.accs [] (s.writes w [.N, .Z, .V]) (g.bytes s) ∧
      Falls s t := by
  obtain ⟨htakes, hnz, hv, hkept, hfalls⟩ := modify8_nzv h g f
  exact ⟨_, hexec, htakes.freeHalf w, hnz.freeHalf w, (State.freeHalf_flag _ w (by decide)).trans hv,
    hkept.freeHalf w, hfalls.freeHalf w⟩

/-- An instruction that changes its operand in place with `f`, writes N, Z, V and C, and leaves H free (R108, R119; D10). -/
theorem exec_modifyNZVC {i : Instr} {g : Target8} {s : State} {f : Byte → Alu 8} {w : Config.HWriter} (h : s.Inv)
    (hexec : exec i s = .next ((modify8 g f State.setAlu s).freeHalf w)) :
    ∃ t, exec i s = .next t ∧ Takes g s t (f (readTarget g s)).value ∧ t.NZof (f (readTarget g s)).value ∧
      t.flag .V = (f (readTarget g s)).overflow ∧ t.flag .C = (f (readTarget g s)).carry ∧
      Kept s t g.accs [] (s.writes w [.N, .Z, .V, .C]) (g.bytes s) ∧ Falls s t := by
  obtain ⟨htakes, hnz, hv, hc, hkept, hfalls⟩ := modify8_nzvc h g f
  exact ⟨_, hexec, htakes.freeHalf w, hnz.freeHalf w, (State.freeHalf_flag _ w (by decide)).trans hv,
    (State.freeHalf_flag _ w (by decide)).trans hc, hkept.freeHalf w, hfalls.freeHalf w⟩

/-- Settles O18: both run the in-place shape, and `incAlu` and `decAlu` are what is claimed of the byte and of V. -/
theorem incrementDecrement : Obligations.IncrementDecrement := by
  intro g s hinv
  exact ⟨exec_modifyNZV hinv (exec_incOper g s), exec_modifyNZV hinv (exec_decOper g s)⟩

/-- The overflow of `0 - v`: the one byte whose negative does not fit (R149). -/
theorem subAlu_zero_overflow (v : Byte) : (subAlu 0x00#8 v false).overflow = decide (v = 0x80) := by
  have hfits : OutOfSigned 7 ((0x00#8).toInt - v.toInt - false.toNat) ↔ v.toInt = (0x80#8).toInt := by
    obtain ⟨hlo, hhi⟩ := toInt_range v
    rw [outOfSigned_byte, show (0x00#8).toInt = 0 from rfl, show (0x80#8).toInt = -128 from rfl, Bool.toNat_false]
    omega
  rw [Bool.eq_iff_iff, decide_eq_true_eq, subAlu_overflow_iff, hfits, BitVec.toInt_inj]
  rfl

/-- What NEG computes (R149): 0x80 alone has no negative, and anything but zero borrows. -/
theorem negAlu_eq (v : Byte) :
    negAlu v = { value := 0 - v, overflow := decide (v = 0x80), carry := decide (v ≠ 0), half := false } := by
  rw [← subAlu_zero_overflow]
  have hborrow : (subAlu 0x00#8 v false).carry = decide (v ≠ 0) := by
    simp [subAlu, Nat.pos_iff_ne_zero, BitVec.toNat_eq]
  rw [← hborrow]
  simp [negAlu, subAlu]

/-- Settles O19: both run the in-place shape, with what NEG and COM compute. -/
theorem negateComplement : Obligations.NegateComplement := by
  intro g s hinv
  have hneg := exec_modifyNZVC hinv (exec_negOper g s)
  rw [negAlu_eq] at hneg
  exact ⟨hneg, exec_modifyNZVC hinv (exec_comOper g s)⟩

/-- Settles O20: CLR clears its operand and TST looks at it; N and Z of zero are clear and set. -/
theorem clearTest : Obligations.ClearTest := by
  refine fun g s => ⟨fun hinv => ?_, ?_⟩
  · obtain ⟨htakes, ⟨hn, hz⟩, hv, hc, hkept, hfalls⟩ := clear8_spec hinv g
    have hflag {f : Flag} (hne : f ≠ .H) := State.freeHalf_flag (clear8 g s) (.clr g.acc?) hne
    exact ⟨_, exec_clrOper g s, htakes.freeHalf _, (hflag (by decide)).trans hn, (hflag (by decide)).trans hz,
      (hflag (by decide)).trans hv, (hflag (by decide)).trans hc, hkept.freeHalf _, hfalls.freeHalf _⟩
  · obtain ⟨hnz, hv, hc, hkept, hfalls⟩ := test8_spec g s
    have hflag {f : Flag} (hne : f ≠ .H) := State.freeHalf_flag (test8 g s) (.tst g.acc?) hne
    exact ⟨_, exec_tstOper g s, hnz.freeHalf _, (hflag (by decide)).trans hv, (hflag (by decide)).trans hc,
      hkept.freeHalf _, hfalls.freeHalf _⟩

/-- An instruction that changes the bits of a memory byte with `f` and leaves H free (R152, R153; D10, D22). -/
theorem exec_changeBits {i : Instr} {m : MemOp} {s : State} {f : Byte → Byte} {w : Config.HWriter} (h : s.Inv)
    (hexec : exec i s = .next ((changeBits m f s).freeHalf w)) :
    ∃ t, exec i s = .next t ∧ Stored s t (ea m s) (f (s.read8 (ea m s))) ∧ LogicFlags t (f (s.read8 (ea m s))) ∧
      Kept s t [] [] (s.writes w [.N, .Z, .V]) [ea m s] ∧ Falls s t := by
  obtain ⟨hstored, hflags, hkept, hfalls⟩ := changeBits_spec h m f
  exact ⟨_, hexec, hstored.freeHalf w, hflags.freeHalf w, hkept.freeHalf w, hfalls.freeHalf w⟩

/-- Settles O22: both change the bits of one byte, BSET by the mask and BCLR by its complement. -/
theorem setClearBits : Obligations.SetClearBits := by
  intro m mask s hinv
  exact ⟨exec_changeBits (f := (· ||| mask)) hinv rfl, exec_changeBits (f := (· &&& ~~~mask)) hinv rfl⟩

end Sys2Proof.Machine

/-! ## Sign extension and multiplication (O23, O24) -/

namespace Sys2Proof.Machine

/-- `sext_16(v)` as two bytes: copies of the sign bit, and `v` (R7). -/
theorem sext16_eq_join (v : Byte) : sext16 v = join (if v.getLsbD 7 then 0xFF else 0x00) v :=
  BitVec.signExtend_eq_append_of_le (by decide)

theorem sext16_msb (v : Byte) : (sext16 v).msb = v.getLsbD 7 := by
  rw [BitVec.msb_eq_toInt, sext16_toInt, ← BitVec.msb_eq_toInt, BitVec.msb_eq_getLsbD_last]

theorem sext16_eq_zero_iff (v : Byte) : sext16 v = 0 ↔ v = 0 := by
  rw [← BitVec.toInt_inj, ← BitVec.toInt_inj, sext16_toInt]
  rfl

/-- The frame without an accumulator that holds what it held. -/
theorem Kept.without_acc {s t : State} {a b : Acc} {iregs : List IReg} {flags : List Flag} {bytes : List Word}
    (h : Kept s t [a, b] iregs flags bytes) (hb : t.acc b = s.acc b) : Kept s t [a] iregs flags bytes := by
  refine ⟨fun c hc => ?_, h.iregs, h.flags, h.bytes, h.cfg⟩
  by_cases hcb : c = b
  · rw [hcb, hb]
  · exact h.accs c (by simp_all)

/-- What a sign extension does, `hi` and `lo` being the halves of its register (R166, R167): the high half alone is written. -/
theorem exec_signExtend {i : Instr} {s : State} {d : Dbl} {hi lo : Acc} {w : Config.HWriter}
    (hexec : exec i s = .next ((signExtend d (s.acc lo) s).freeHalf w))
    (hhalves : d.halves = [hi, lo]) (hdbl : ∀ t : State, t.dbl d = join (t.acc hi) (t.acc lo)) :
    ∃ t, exec i s = .next t ∧ t.acc hi = (if (s.acc lo).getLsbD 7 then 0xFF else 0x00) ∧ t.acc lo = s.acc lo ∧
      (t.dbl d).toInt = (s.acc lo).toInt ∧ t.flag .N = (s.acc lo).getLsbD 7 ∧ t.flag .Z = decide (s.acc lo = 0) ∧
      t.flag .V = false ∧ t.flag .C = false ∧ Kept s t [hi] [] (s.writes w [.N, .Z, .V, .C]) [] ∧ Falls s t := by
  obtain ⟨hd, hnz, hv, hc, hkept, hfalls⟩ := signExtend_spec d (s.acc lo) s
  rw [← State.freeHalf_dbl _ w] at hd
  have hjoin := (hdbl _).symm.trans (hd.trans (sext16_eq_join _))
  have hhi := congrArg hiByte hjoin
  have hlo := congrArg loByte hjoin
  simp only [hiByte_join, loByte_join] at hhi hlo
  obtain ⟨hn, hz⟩ := hnz.freeHalf w
  rw [sext16_msb] at hn
  simp only [sext16_eq_zero_iff] at hz
  rw [hhalves] at hkept
  exact ⟨_, hexec, hhi, hlo, by rw [hd, sext16_toInt], hn, hz, (State.freeHalf_flag _ w (by decide)).trans hv,
    (State.freeHalf_flag _ w (by decide)).trans hc, (hkept.freeHalf w).without_acc hlo, hfalls.freeHalf w⟩

/-- The product of two bytes fits a word (R168). -/
theorem mulProduct_toNat (p q : Byte) : (mulProduct p q).toNat = p.toNat * q.toNat := by
  have hfits : p.toNat * q.toNat < 256 * 256 := Nat.mul_lt_mul'' p.isLt q.isLt
  rw [mulProduct, BitVec.toNat_mul, zext16_toNat, zext16_toNat]
  exact Nat.mod_eq_of_lt hfits

/-- Settles O24: D takes the product, which MUL's operands cannot make too large and of which MED keeps the low 16 bits. -/
theorem multiplyRegisters : Obligations.MultiplyRegisters := by
  refine ⟨fun s => ?_, fun s => ?_⟩
  · obtain ⟨hd, hc, hkept, hfalls⟩ := multiply8_spec s
    rw [← State.freeHalf_dbl _ .mul] at hd
    rw [← State.freeHalf_flag _ .mul (by decide)] at hc
    refine ⟨_, rfl, by rw [hd, mulProduct_toNat], fun hrule => ?_, hkept.freeHalf _, hfalls.freeHalf _⟩
    rw [hc, hd, hrule]
    rfl
  · obtain ⟨hd, hkept, hfalls⟩ := multiply16_spec s
    rw [← State.freeHalf_dbl _ .med] at hd
    exact ⟨_, rfl, by rw [hd, BitVec.toNat_mul], hkept.freeHalf _, hfalls.freeHalf _⟩

end Sys2Proof.Machine

namespace Sys2Proof

/-- Settles O23: SXTB extends B into D, SXTL extends L into E. -/
theorem signExtend : Obligations.SignExtend := fun _ =>
  ⟨Machine.exec_signExtend (d := .D) (hi := .A) (lo := .B) rfl rfl fun _ => rfl,
    Machine.exec_signExtend (d := .E) (hi := .H) (lo := .L) rfl rfl fun _ => rfl⟩

end Sys2Proof

/-! ## Decimal adjustment (O25, O26) -/

namespace Sys2Proof.Machine

/-- `DAA_FN` of the M68HC11, where a BCD addition leaves A, C and H (R169; D11). -/
theorem daaFn_default {a : Byte} {c h : Bool} (hdef : daaDefined a c h = true) (n : Nat) :
    daaFn .m68hc11 n a c h = daaDefault a c h := by
  rw [daaFn, if_pos hdef]

end Sys2Proof.Machine

namespace Sys2Proof

open Machine

/-- Settles O25: N and Z describe the result of `DAA_FN` whatever it is, and it is the default's where that is defined. -/
theorem decimalAdjust : Obligations.DecimalAdjust := by
  intro s
  obtain ⟨ha, hnz, hc, hkept, hfalls⟩ := decimalAdjust_spec s
  rw [← ha] at hnz
  rw [← State.freeHalf_a _ .daa] at ha hnz
  rw [← State.freeHalf_flag _ .daa (by decide)] at hc
  refine ⟨_, rfl, hnz.freeHalf _, fun hrule hdef => ?_, hkept.freeHalf _, hfalls.freeHalf _⟩
  rw [ha, hc, hrule, daaFn_default hdef]
  exact ⟨rfl, rfl⟩

end Sys2Proof

namespace Sys2Proof.Machine

/-- The adjustment adds 0x06: the low digits of a BCD sum made a decimal carry (R169). -/
def adjustsLow (a : Byte) (h : Bool) : Bool := h || decide (9 < a.toNat % 16)

/-- The adjustment adds 0x60 and sets C: the BCD sum made a hundred (R169). -/
def adjustsHigh (a : Byte) (c : Bool) : Bool :=
  c || decide (9 < a.toNat / 16) || (decide (9 ≤ a.toNat / 16) && decide (9 < a.toNat % 16))

theorem daaDefault_carry (a : Byte) (c h : Bool) : (daaDefault a c h).2 = adjustsHigh a c := rfl

theorem daaDefault_toNat (a : Byte) (c h : Bool) :
    (daaDefault a c h).1.toNat = (a.toNat + 6 * (adjustsLow a h).toNat + 96 * (adjustsHigh a c).toNat) % 256 := by
  have hvalue : (daaDefault a c h).1 =
      a + (if adjustsLow a h then 0x06#8 else 0x00#8) + (if adjustsHigh a c then 0x60#8 else 0x00#8) := rfl
  rw [hvalue]
  cases adjustsLow a h <;> cases adjustsHigh a c <;> simp [BitVec.toNat_add, Nat.mod_eq_of_lt a.isLt]

theorem toNat_decide (P : Prop) [Decidable P] : (decide P).toNat = if P then 1 else 0 :=
  apply_ite Bool.toNat P true false

section BcdSum

variable {p q : Byte} (hp : isBcd p) (hq : isBcd q) (cin : Bool)
include hp hq

/-- What DAA is defined on includes every BCD sum (R169, R345). -/
theorem daaDefined_addAlu :
    daaDefined (addAlu p q cin).value (addAlu p q cin).carry (addAlu p q cin).half = true := by
  obtain ⟨hpHigh, hpLow⟩ := hp
  obtain ⟨hqHigh, hqLow⟩ := hq
  have hcin := cin.toNat_le
  simp only [daaDefined, addAlu, BitVec.toNat_ofNat, toNat_decide, Bool.and_eq_true, Bool.or_eq_true, Bool.not_eq_true',
    decide_eq_true_eq, decide_eq_false_iff_not]
  refine ⟨by omega, ?_⟩
  by_cases hcarry : 2 ^ 8 ≤ p.toNat + q.toNat + cin.toNat
  · rw [if_pos hcarry, decide_eq_true_eq]
    split <;> omega
  · rw [if_neg hcarry, decide_eq_true_eq]
    split <;> omega

/-- The adjustment of the low digits is their decimal carry. -/
theorem adjustsLow_addAlu :
    (adjustsLow (addAlu p q cin).value (addAlu p q cin).half).toNat = (p.toNat % 16 + q.toNat % 16 + cin.toNat) / 10 := by
  obtain ⟨-, hpLow⟩ := hp
  obtain ⟨-, hqLow⟩ := hq
  have hcin := cin.toNat_le
  simp only [adjustsLow, addAlu, BitVec.toNat_ofNat, ← Bool.decide_or, toNat_decide]
  split <;> omega

/-- The adjustment of the high digits, which is C after it, is the hundred of the decimal sum. -/
theorem adjustsHigh_addAlu :
    (adjustsHigh (addAlu p q cin).value (addAlu p q cin).carry).toNat = (bcdValue p + bcdValue q + cin.toNat) / 100 := by
  obtain ⟨hpHigh, hpLow⟩ := hp
  obtain ⟨hqHigh, hqLow⟩ := hq
  have hcin := cin.toNat_le
  simp only [adjustsHigh, addAlu, bcdValue, BitVec.toNat_ofNat, ← Bool.decide_or, ← Bool.decide_and,
    toNat_decide]
  split <;> omega

/-- The adjusted sum is the decimal one: 0x06 makes a decimal carry out of the low digits a binary one, and 0x60 with the wrap
takes ten from the high digit, which is the hundred in C (R169). -/
theorem daaDefault_addAlu {r : Byte} {c : Bool}
    (hr : daaDefault (addAlu p q cin).value (addAlu p q cin).carry (addAlu p q cin).half = (r, c)) :
    isBcd r ∧ 100 * c.toNat + bcdValue r = bcdValue p + bcdValue q + cin.toNat := by
  have hlow := adjustsLow_addAlu hp hq cin
  have hhigh := adjustsHigh_addAlu hp hq cin
  have hvalue := daaDefault_toNat (addAlu p q cin).value (addAlu p q cin).carry (addAlu p q cin).half
  have hsum : (addAlu p q cin).value.toNat = (p.toNat + q.toNat + cin.toNat) % 256 := BitVec.toNat_ofNat ..
  rw [← daaDefault_carry _ _ (addAlu p q cin).half, hr] at hhigh hvalue
  rw [hlow, hsum, Nat.add_assoc, Nat.mod_add_mod, ← Nat.add_assoc] at hvalue
  obtain ⟨hpHigh, hpLow⟩ := hp
  obtain ⟨hqHigh, hqLow⟩ := hq
  have hcin := cin.toNat_le
  simp only [bcdValue, isBcd] at hhigh hvalue ⊢
  have hexact : r.toNat + 160 * c.toNat =
      p.toNat + q.toNat + cin.toNat + 6 * ((p.toNat % 16 + q.toNat % 16 + cin.toNat) / 10) := by
    omega
  omega

end BcdSum

/-- DAA after an addition of decimal operands into A that writes H (R169, R345; D10, D11). -/
theorem exec_add_then_daa {i : Instr} {w : Config.HWriter} {q : Byte} {cin : Bool} {s : State}
    (hexec : exec i s = .next (add8To w .A q cin s)) (hw : w ∈ s.cfg.hWriters) (hrule : s.cfg.daaFn = .m68hc11)
    (hp : isBcd s.a) (hq : isBcd q) :
    ∃ t u, exec i s = .next t ∧ exec .daa t = .next u ∧ isBcd u.a ∧
      100 * (u.flag .C).toNat + bcdValue u.a = bcdValue s.a + bcdValue q + cin.toNat := by
  obtain ⟨hacc, hflags, hhalf, hkept, -⟩ := add8To_spec w .A q cin s
  rw [← addAlu_value] at hacc
  rw [if_pos hw] at hhalf
  have hdef := daaDefined_addAlu hp hq cin
  obtain ⟨u, hdaa, -, hadjust, -, -⟩ := Sys2Proof.decimalAdjust (add8To w .A q cin s)
  rw [show (add8To w .A q cin s).a = (addAlu s.a q cin).value from hacc,
    show (add8To w .A q cin s).flag .C = (addAlu s.a q cin).carry from hflags.c,
    show (add8To w .A q cin s).flag .H = (addAlu s.a q cin).half from hhalf] at hadjust
  obtain ⟨hvalue, hcarry⟩ := hadjust (hkept.cfg ▸ hrule) hdef
  exact ⟨_, u, hexec, hdaa, daaDefault_addAlu hp hq cin (Prod.ext hvalue.symm hcarry.symm)⟩

/-- Settles O26: each of the three is an addition into A, after which DAA makes the decimal sum of the binary one. -/
theorem decimalSum : Obligations.DecimalSum := by
  intro s hrule hp
  refine ⟨fun o hw hq => ?_, fun o hw hq => ?_, fun hw hq => ?_⟩
  · exact exec_add_then_daa (exec_addAcc .A o s) hw hrule hp hq
  · exact exec_add_then_daa (exec_adcAcc .A o s) hw hrule hp hq
  · exact exec_add_then_daa (cin := false) rfl hw hrule hp hq

end Sys2Proof.Machine

/-! ## Writing one flag (O27) -/

namespace Sys2Proof.Machine

/-- What an instruction that only writes one flag does (R180 to R183). -/
theorem State.setFlag_spec (s : State) (f : Flag) (v : Bool) :
    (s.setFlag f v).flag f = v ∧ Kept s (s.setFlag f v) [] [] [f] [] ∧ Falls s (s.setFlag f v) :=
  ⟨by rw [State.setFlag_flag, if_pos rfl], s.setFlag_kept f v, s.ccr_falls _⟩

/-- Settles O27: each of the four is the write of its flag. -/
theorem carryOverflowFlags : Obligations.CarryOverflowFlags := by
  intro i f v hrow s
  simp only [List.mem_cons, Prod.mk.injEq, List.not_mem_nil, or_false] at hrow
  obtain ⟨rfl, rfl, rfl⟩ | ⟨rfl, rfl, rfl⟩ | ⟨rfl, rfl, rfl⟩ | ⟨rfl, rfl, rfl⟩ := hrow
  · exact ⟨_, rfl, s.setFlag_spec .C false⟩
  · exact ⟨_, rfl, s.setFlag_spec .C true⟩
  · exact ⟨_, rfl, s.setFlag_spec .V false⟩
  · exact ⟨_, rfl, s.setFlag_spec .V true⟩

end Sys2Proof.Machine

/-! ## The 16-bit accumulators (O31 to O34, O36) -/

namespace Sys2Proof.Machine

/-! The shape that each mnemonic of a register template runs (R190, R193, R194, R200 to R202, R210). -/

theorem exec_ldDbl (d : Dbl) (o : Src16) (s : State) : exec (Instr.ldDbl d o) s = .next (load16 d o s) := by
  cases d <;> rfl

theorem exec_ldIndex (r : IReg) (o : Src16) (s : State) : exec (Instr.ldIndex r o) s = .next (loadIndex r o s) := by
  cases r <;> rfl

theorem exec_addDbl (d : Dbl) (o : Src16) (s : State) :
    exec (Instr.addDbl d o) s = .next ((add16To d (oper16 o s) s).freeHalf (.addDbl d)) := by
  cases d <;> rfl

theorem exec_subDbl (d : Dbl) (o : Src16) (s : State) :
    exec (Instr.subDbl d o) s = .next ((sub16From d (oper16 o s) s).freeHalf (.subDbl d)) := by
  cases d <;> rfl

theorem exec_lsrDbl (d : Dbl) (s : State) :
    exec (Instr.lsrDbl d) s = .next ((shift16 d lsrAlu s).freeHalf (.lsrDbl d)) := by
  cases d <;> rfl

theorem exec_asrDbl (d : Dbl) (s : State) :
    exec (Instr.asrDbl d) s = .next ((shift16 d asrAlu s).freeHalf (.asrDbl d)) := by
  cases d <;> rfl

theorem exec_aslDbl (d : Dbl) (s : State) :
    exec (Instr.aslDbl d) s = .next ((shift16 d aslAlu s).freeHalf (.aslDbl d)) := by
  cases d <;> rfl

/-- Settles O32: each of the six is the store of its register, and the invariant lets memory read both bytes back. -/
theorem storeWord : Obligations.StoreWord := by
  intro m s hinv i v hrow
  have hexec : exec i s = .next (store16 m v s) := by
    simp only [List.mem_cons, Prod.mk.injEq, List.not_mem_nil, or_false] at hrow
    obtain ⟨rfl, rfl⟩ | ⟨rfl, rfl⟩ | ⟨rfl, rfl⟩ | ⟨rfl, rfl⟩ | ⟨rfl, rfl⟩ | ⟨rfl, rfl⟩ := hrow <;> rfl
  exact ⟨_, hexec, store16_spec hinv m v⟩

/-- Settles O31: LD is the load into its register, of which that into S leaves PC and the run state. -/
theorem loadWord : Obligations.LoadWord := by
  refine ⟨fun d o s => ?_, fun r o s => ?_, fun o s => ?_⟩
  · exact ⟨_, exec_ldDbl d o s, load16_spec d o s⟩
  · exact ⟨_, exec_ldIndex r o s, loadIndex_spec r o s⟩
  · exact ⟨_, rfl, loadStack_spec o s⟩

/-- An instruction that writes a double accumulator and the four flags, and leaves H free; `P` is what it makes of the flags,
which H does not enter (R119; D10). -/
theorem exec_writesDbl {i : Instr} {s t : State} {d : Dbl} {r : Word} {w : Config.HWriter} {P : State → Prop}
    (hexec : exec i s = .next (t.freeHalf w))
    (hspec : t.dbl d = r ∧ P t ∧ Kept s t d.halves [] [.N, .Z, .V, .C] [] ∧ Falls s t) (hP : P t → P (t.freeHalf w)) :
    ∃ t, exec i s = .next t ∧ t.dbl d = r ∧ P t ∧ Kept s t d.halves [] (s.writes w [.N, .Z, .V, .C]) [] ∧ Falls s t := by
  obtain ⟨hdbl, hflags, hkept, hfalls⟩ := hspec
  exact ⟨_, hexec, (t.freeHalf_dbl w d).trans hdbl, hP hflags, hkept.freeHalf w, hfalls.freeHalf w⟩

/-- Settles O33: ADD and AED are the addition to their register, SUB and SED the subtraction from it; AED and SED have D as
the register and E as the operand. -/
theorem arithmeticDouble : Obligations.ArithmeticDouble := by
  refine ⟨fun d o s => ?_, fun s => ?_, fun d o s => ?_, fun s => ?_⟩
  · exact exec_writesDbl (exec_addDbl d o s) (add16To_spec d (oper16 o s) s) (·.freeHalf _)
  · exact exec_writesDbl rfl (add16To_spec .D (s.dbl .E) s) (·.freeHalf _)
  · exact exec_writesDbl (exec_subDbl d o s) (sub16From_spec d (oper16 o s) s) (·.freeHalf _)
  · exact exec_writesDbl rfl (sub16From_spec .D (s.dbl .E) s) (·.freeHalf _)

/-- The parameter `XGDE_FLAGS_FROM` has two values (R192; D13, entry 14). -/
theorem xgdeFlags_eq_ite (c : Config.XgdeFrom) (newD newE : Word) :
    xgdeFlags c newD newE = if c = .newD then newD else newE := by
  cases c <;> rfl

/-- Settles O34: the two are exchanged, so that the value the parameter names is one the register now has. -/
theorem exchangeDoubles : Obligations.ExchangeDoubles := by
  intro s
  obtain ⟨hD, hE, hflags, hkept, hfalls⟩ := exchangeDE_spec s
  rw [xgdeFlags_eq_ite, ← hD, ← hE] at hflags
  exact ⟨_, rfl, hD, hE, hflags, hkept, hfalls⟩

/-- `shift16_spec` for a shift that gives the result `r` and shifts the bit `out` out (R118). -/
theorem shift16_shifts {d : Dbl} {s : State} {f : Word → Alu 16} {r : Word} {out : Bool}
    (hf : f (s.dbl d) = shiftAlu r out) :
    (shift16 d f s).dbl d = r ∧ ShiftFlags (shift16 d f s) r out ∧
      Kept s (shift16 d f s) d.halves [] [.N, .Z, .V, .C] [] ∧ Falls s (shift16 d f s) := by
  obtain ⟨hdbl, hnz, hv, hc, hkept, hfalls⟩ := shift16_spec d f s
  rw [hf] at hdbl hnz hv hc
  exact ⟨hdbl, ⟨hnz, hv, hc⟩, hkept, hfalls⟩

/-- Settles O36: each of the three runs the 16-bit shape, and what it computes is its row of the table of R118. -/
theorem shiftDouble : Obligations.ShiftDouble := by
  intro d s i w r out hrow
  simp only [List.mem_cons, Prod.mk.injEq, List.not_mem_nil, or_false] at hrow
  obtain ⟨rfl, rfl, rfl, rfl⟩ | ⟨rfl, rfl, rfl, rfl⟩ | ⟨rfl, rfl, rfl, rfl⟩ := hrow
  · exact exec_writesDbl (exec_lsrDbl d s) (shift16_shifts (lsrAlu_eq _)) (·.freeHalf _)
  · exact exec_writesDbl (exec_asrDbl d s) (shift16_shifts (asrAlu_eq _)) (·.freeHalf _)
  · exact exec_writesDbl (exec_aslDbl d s) (shift16_shifts (aslAlu_eq _)) (·.freeHalf _)

end Sys2Proof.Machine

/-! ## The index registers (O35, O37, O38) -/

namespace Sys2Proof.Machine

/-! The shape that each mnemonic of a register template runs (R214, R216 to R219). -/

theorem exec_xgIndex (d : Dbl) (r : IReg) (s : State) : exec (Instr.xgIndex d r) s = .next (exchangeIndex d r s) := by
  cases d <;> cases r <;> rfl

theorem exec_inIndex (r : IReg) (s : State) :
    exec (Instr.inIndex r) s = .next ((countIndex r (s.ireg r + 1) s).freeHalf (.inIndex r)) := by
  cases r <;> rfl

theorem exec_deIndex (r : IReg) (s : State) :
    exec (Instr.deIndex r) s = .next ((countIndex r (s.ireg r - 1) s).freeHalf (.deIndex r)) := by
  cases r <;> rfl

theorem exec_addIndex (r : IReg) (o : Src16) (s : State) :
    exec (Instr.addIndex r o) s = .next (s.setIreg r (s.ireg r + oper16 o s)) := by
  cases r <;> rfl

theorem exec_abIndex (r : IReg) (s : State) :
    exec (Instr.abIndex r) s = .next (s.setIreg r (s.ireg r + zext16 s.b)) := by
  cases r <;> rfl

/-- An instruction that counts an index register to `v`, writes Z, and leaves H free (R216, R217; D10). -/
theorem exec_count {i : Instr} {s : State} {r : IReg} {v : Word} {w : Config.HWriter}
    (hexec : exec i s = .next ((countIndex r v s).freeHalf w)) :
    ∃ t, exec i s = .next t ∧ t.ireg r = v ∧ t.flag .Z = decide (v = 0) ∧ Kept s t [] [r] (s.writes w [.Z]) [] ∧
      Falls s t := by
  obtain ⟨hireg, hz, hkept, hfalls⟩ := countIndex_spec r v s
  exact ⟨_, hexec, (State.freeHalf_ireg _ w r).trans hireg, (State.freeHalf_flag _ w (by decide)).trans hz,
    hkept.freeHalf w, hfalls.freeHalf w⟩

/-- Settles O38: each writes its register alone, with a sum mod 2^16 in which AB extends B with zeros. -/
theorem addToIndex : Obligations.AddToIndex := by
  refine ⟨fun r o s => ?_, fun r s => ?_⟩
  · exact ⟨_, exec_addIndex r o s, setIreg_spec r _ s⟩
  · obtain ⟨hireg, hkept, hfalls⟩ := setIreg_spec r (s.ireg r + zext16 s.b) s
    exact ⟨_, exec_abIndex r s, by rw [hireg, add_zext16_toNat], hkept, hfalls⟩

end Sys2Proof.Machine

namespace Sys2Proof

/-- Settles O35: each of the six runs the exchange of its two registers. -/
theorem exchangeIndex : Obligations.ExchangeIndex := by
  intro d r s
  exact ⟨_, Machine.exec_xgIndex d r s, Machine.exchangeIndex_spec d r s⟩

/-- Settles O37: IN counts its register up and DE down. -/
theorem countIndex : Obligations.CountIndex := by
  intro r s
  exact ⟨Machine.exec_count (Machine.exec_inIndex r s), Machine.exec_count (Machine.exec_deIndex r s)⟩

end Sys2Proof

/-! ## The stack pointer (O39) -/

namespace Sys2Proof.Machine

/-! The shape that each mnemonic of a register template runs (R227, R228). -/

theorem exec_tsIndex (r : IReg) (s : State) : exec (Instr.tsIndex r) s = .next (s.setIreg r (s.sp + 1)) := by
  cases r <;> rfl

theorem exec_tIndexS (r : IReg) (s : State) :
    exec (Instr.tIndexS r) s = .next { s with sp := s.ireg r - 1 } := by
  cases r <;> rfl

/-- An instruction that puts `v` in S writes nothing else (R228 to R230). -/
theorem exec_writesSp {i : Instr} {s : State} {v : Word} (hexec : exec i s = .next { s with sp := v }) :
    ∃ t, exec i s = .next t ∧ t.sp = v ∧ t.pc = s.pc ∧ Kept s t [] [] [] [] ∧ SameControl s t :=
  ⟨_, hexec, rfl, rfl, setSp_spec v s⟩

/-- Settles O39: T S x writes its index register alone; T x S, INS and DES write S alone. -/
theorem stackPointerMoves : Obligations.StackPointerMoves := by
  refine ⟨fun r s => ⟨?_, ?_⟩, fun s => ⟨?_, ?_⟩⟩
  · exact ⟨_, exec_tsIndex r s, setIreg_spec r (s.sp + 1) s⟩
  · exact exec_writesSp (exec_tIndexS r s)
  · exact exec_writesSp (i := .ins) rfl
  · exact exec_writesSp (i := .des) rfl

end Sys2Proof.Machine

/-! ## Jumps, calls and returns (O40 to O43) -/

namespace Sys2Proof.Machine

/-- Settles O40: NOP leaves the state, JMP writes PC alone, and BRA is the branch that is always taken. -/
theorem jumpBranchNop : Obligations.JumpBranchNop := by
  refine ⟨fun _ => rfl, fun m s => ?_, fun off s => ?_⟩
  · exact ⟨_, rfl, rfl, rfl, setPc_spec (ea m s) s⟩
  · exact ⟨_, rfl, branchIf_spec true off s⟩

/-- Settles O41: both are the call of their target. -/
theorem callSubroutine : Obligations.CallSubroutine := by
  intro s hinv i dest hcall
  obtain ⟨m, rfl, rfl⟩ | ⟨off, rfl, rfl⟩ := hcall
  · exact ⟨_, rfl, call_spec hinv (ea m s)⟩
  · exact ⟨_, rfl, call_spec hinv (target off s)⟩

/-- Settles O42: RTS is the return from a call. -/
theorem returnFromSubroutine : Obligations.ReturnFromSubroutine := fun s =>
  ⟨_, rfl, returnFromCall_spec s⟩

/-- A return undoes a call whose stack lies in RAM, but for the bytes stacked (R242 to R244; D7, entry 22). -/
theorem returnFromCall_call {s : State} (h : s.Inv) (hlo : s.writable s.sp = true)
    (hhi : s.writable (s.sp - 1) = true) (dest : Word) :
    returnFromCall (call dest s) = { s with mem := (call dest s).mem } := by
  obtain ⟨-, hstoredLo, hstoredHi, hsp, hkept, -⟩ := call_spec h dest
  exact returnFromCall_stacked (hstoredLo.read8 hkept.cfg hlo) (hstoredHi.read8 hkept.cfg hhi) hsp

/-- An instruction that calls, and RTS right after it (R242 to R244). -/
theorem exec_call_rts {i : Instr} {s : State} {dest : Word} (h : s.Inv) (hlo : s.writable s.sp = true)
    (hhi : s.writable (s.sp - 1) = true) (hexec : exec i s = .next (call dest s)) :
    ∃ t, exec i s = .next t ∧ exec .rts t = .next { s with mem := t.mem } ∧
      ∀ p, p ∉ [s.sp, s.sp - 1] → t.mem.read p = s.mem.read p := by
  obtain ⟨-, -, -, -, hkept, -⟩ := call_spec h dest
  exact ⟨_, hexec, congrArg Host.Outcome.next (returnFromCall_call h hlo hhi dest), hkept.bytes⟩

/-- Settles O43: both are the call of their target, which the return undoes. -/
theorem callThenReturn : Obligations.CallThenReturn := by
  intro s hinv hlo hhi i hcall
  obtain ⟨m, rfl⟩ | ⟨off, rfl⟩ := hcall
  · exact exec_call_rts hinv hlo hhi (dest := ea m s) rfl
  · exact exec_call_rts hinv hlo hhi (dest := target off s) rfl

end Sys2Proof.Machine

/-! ## The branches (O44, O45, O47) -/

namespace Sys2Proof.Machine

/-- What an instruction does that is in a list of branches, each with its condition (R246). -/
theorem exec_branchRow {rows : List (Instr × Bool)} {i : Instr} {off : Byte} {s : State} {cond : Bool}
    (hrows : ∀ row ∈ rows, exec row.1 s = .next (branchIf row.2 off s)) (hrow : (i, cond) ∈ rows) :
    ∃ t, exec i s = .next t ∧ t.pc = (if cond then target off s else s.pc) ∧ t.sp = s.sp ∧
      Kept s t [] [] [] [] ∧ SameControl s t :=
  ⟨_, hrows _ hrow, branchIf_spec cond off s⟩

/-- Settles O44: each of the eight branches under its condition. -/
theorem flagBranches : Obligations.FlagBranches := by
  intro i off s cond hrow
  refine exec_branchRow ?_ hrow
  simp only [List.forall_mem_cons]
  exact ⟨rfl, rfl, rfl, rfl, rfl, rfl, rfl, rfl, List.forall_mem_nil _⟩

/-- Settles O45: each of the eight branches under its condition. -/
theorem comparisonBranches : Obligations.ComparisonBranches := by
  intro i off s cond hrow
  refine exec_branchRow ?_ hrow
  simp only [List.forall_mem_cons]
  exact ⟨rfl, rfl, rfl, rfl, rfl, rfl, rfl, rfl, List.forall_mem_nil _⟩

/-- No bit of `v` that the mask selects is set (R248). -/
theorem and_mask_eq_zero_iff {w : Nat} (v mask : BitVec w) :
    v &&& mask = 0 ↔ ∀ k < w, mask.getLsbD k = true → v.getLsbD k = false := by
  rw [BitVec.eq_of_getLsbD_eq_iff]
  refine forall₂_congr fun k _ => ?_
  rw [BitVec.getLsbD_and, BitVec.ofNat_eq_ofNat, BitVec.getLsbD_zero, Bool.and_eq_false_imp]
  cases mask.getLsbD k <;> simp

/-- No bit of `v` that the mask selects is clear (R247). -/
theorem not_and_mask_eq_zero_iff {w : Nat} (v mask : BitVec w) :
    ~~~v &&& mask = 0 ↔ ∀ k < w, mask.getLsbD k = true → v.getLsbD k = true := by
  rw [and_mask_eq_zero_iff]
  refine forall₂_congr fun k hk => ?_
  simp [hk]

/-- An instruction that branches if `P` holds; `taken` and `notTaken` are conditions under which it does and does not. -/
theorem exec_branchOn {i : Instr} {off : Byte} {s : State} {P taken notTaken : Prop} [Decidable P]
    (hexec : exec i s = .next (branchIf (decide P) off s)) (htaken : taken → P) (hnot : notTaken → ¬ P) :
    ∃ t, exec i s = .next t ∧ (taken → t.pc = target off s) ∧ (notTaken → t.pc = s.pc) ∧ t.sp = s.sp ∧
      Kept s t [] [] [] [] ∧ SameControl s t := by
  obtain ⟨hpc, hrest⟩ := branchIf_spec (decide P) off s
  refine ⟨_, hexec, fun h => ?_, fun h => ?_, hrest⟩
  · rw [hpc, if_pos (decide_eq_true (htaken h))]
  · rw [hpc, if_neg (by simpa using hnot h)]

/-- Settles O47: both branch on a masked byte being zero, BRSET on that of the operand's complement. -/
theorem bitTestBranches : Obligations.BitTestBranches := by
  intro m mask off s
  have hset := not_and_mask_eq_zero_iff (s.read8 (ea m s)) mask
  have hclr := and_mask_eq_zero_iff (s.read8 (ea m s)) mask
  refine ⟨exec_branchOn rfl hset.mpr ?_, exec_branchOn rfl hclr.mpr ?_⟩
  · rintro ⟨k, hk, hsel, hbit⟩ hzero
    simp [hset.mp hzero k hk hsel] at hbit
  · rintro ⟨k, hk, hsel, hbit⟩ hzero
    simp [hclr.mp hzero k hk hsel] at hbit

end Sys2Proof.Machine

/-! ## What the branches tell after a comparison (O46) -/

namespace Sys2Proof.Machine

section Compared

variable {n : Nat} {t : State} {p q : BitVec (n + 1)}

/-- Z after a comparison (R114, R116). -/
theorem SubFlags.decides_eq (h : SubFlags t p q (p - q) false) : t.flag .Z = decide (p = q) := by
  rw [h.nz.2, decide_eq_decide]
  exact sub_eq_zero

/-- C after a comparison is the borrow (R114, R116; D25). -/
theorem SubFlags.decides_lt_unsigned (h : SubFlags t p q (p - q) false) :
    t.flag .C = decide (p.toNat < q.toNat) := h.c

/-- N is the sign of the true difference unless that does not fit, which V says (R23, R265). -/
theorem SubFlags.decides_lt_signed (h : SubFlags t p q (p - q) false) :
    (t.flag .N ^^ t.flag .V) = decide (p.toInt < q.toInt) := by
  obtain ⟨hp, hp'⟩ := toInt_range p
  obtain ⟨hq, hq'⟩ := toInt_range q
  have hval : (subAlu p q false).value = p - q := by simp [subAlu]
  have hborrow : (false.toNat : Int) = 0 := rfl
  have hN := msb_of_wraps (subAlu_value_toInt p q false) (by omega) (by omega)
  have hV : t.flag .V = true ↔ OutOfSigned n (p.toInt - q.toInt - false.toNat) := by
    rw [h.v, ← hval]
    exact subAlu_overflow_iff p q false
  rw [hval, ← h.nz.1] at hN
  rw [Bool.eq_iff_iff, Bool.xor_iff_ne, hN, ne_eq, Bool.eq_iff_iff, hV]
  simp only [decide_eq_true_eq, OutOfSigned]
  omega

theorem SubFlags.decides_le_unsigned (h : SubFlags t p q (p - q) false) :
    (t.flag .C || t.flag .Z) = decide (p.toNat ≤ q.toNat) := by
  rw [h.decides_lt_unsigned, h.decides_eq, ← Bool.decide_or, decide_eq_decide, ← BitVec.toNat_inj]
  exact Nat.le_iff_lt_or_eq.symm

theorem SubFlags.decides_le_signed (h : SubFlags t p q (p - q) false) :
    (t.flag .Z || (t.flag .N ^^ t.flag .V)) = decide (p.toInt ≤ q.toInt) := by
  rw [h.decides_lt_signed, h.decides_eq, ← Bool.decide_or, decide_eq_decide, ← BitVec.toInt_inj]
  exact le_iff_eq_or_lt.symm

/-- A branch under a condition that the flags decide (R246). -/
theorem goesIf_of_exec {i : Instr} {off : Byte} {cond : Bool} {c : Prop} [Decidable c]
    (hexec : exec i t = .next (branchIf cond off t)) (hcond : cond = decide c) : GoesIf i t off c := by
  rw [GoesIf, hexec, hcond, branchIf]
  simp only [decide_eq_true_eq]

/-- A branch under the negation of a condition that the flags decide (R246). -/
theorem goesIf_of_exec_not {i : Instr} {off : Byte} {cond : Bool} {c d : Prop} [Decidable c] [Decidable d]
    (hexec : exec i t = .next (branchIf (!cond) off t)) (hcond : cond = decide c) (hcd : ¬ c ↔ d) : GoesIf i t off d :=
  goesIf_of_exec hexec (by rw [hcond, ← decide_not, decide_eq_decide, hcd])

/-- The flags of a comparison make every comparison branch tell how the operands compare (R265). -/
theorem SubFlags.comparesAs (h : SubFlags t p q (p - q) false) : ComparesAs t p q where
  eq _ := goesIf_of_exec rfl h.decides_eq
  ne _ := goesIf_of_exec_not rfl h.decides_eq Iff.rfl
  hi _ := goesIf_of_exec_not rfl h.decides_le_unsigned not_le
  hs _ := goesIf_of_exec_not rfl h.decides_lt_unsigned not_lt
  lo _ := goesIf_of_exec rfl h.decides_lt_unsigned
  ls _ := goesIf_of_exec rfl h.decides_le_unsigned
  gt _ := goesIf_of_exec_not rfl h.decides_le_signed not_le
  ge _ := goesIf_of_exec_not rfl h.decides_lt_signed not_lt
  lt _ := goesIf_of_exec rfl h.decides_lt_signed
  le _ := goesIf_of_exec rfl h.decides_le_signed

/-- An instruction that sets the flags of a comparison, whatever else is known of it. -/
theorem exec_comparesAs {i : Instr} {s : State} {rest : State → Prop}
    (h : ∃ t, exec i s = .next t ∧ SubFlags t p q (p - q) false ∧ rest t) :
    ∃ t, exec i s = .next t ∧ ComparesAs t p q := by
  obtain ⟨t, hexec, hflags, -⟩ := h
  exact ⟨t, hexec, hflags.comparesAs⟩

end Compared

/-- Settles O46: each of the six sets the flags of its subtraction, as O16 says. -/
theorem comparisonMeaning : Obligations.ComparisonMeaning := by
  obtain ⟨hcmp, hpair, hdbl, hced, hindex⟩ := compareRegister
  refine ⟨fun a o s => ?_, fun s => ?_, fun s => ?_, fun d o s => ?_, fun s => ?_, fun r o s => ?_⟩
  · exact exec_comparesAs (hcmp a o s)
  · exact exec_comparesAs (hpair .cba .cba .A .B (by simp) s)
  · exact exec_comparesAs (hpair .clh .clh .H .L (by simp) s)
  · exact exec_comparesAs (hdbl d o s)
  · exact exec_comparesAs (hced s)
  · exact exec_comparesAs (hindex r o s)

end Sys2Proof.Machine

/-! ## The interrupt mask and CCR (O28) -/

namespace Sys2Proof.Machine

/-- A written flag leaves the request as it is, and a written I decides on it at once (R302, R303; D20). -/
theorem State.setFlag_acceptsIrq (s : State) (v : Bool) : (s.setFlag .I v).acceptsIrq = (s.input.irq && !v) := by
  rw [State.acceptsIrq, State.setFlag_flag, if_pos rfl]
  rfl

/-- What an instruction that only writes I does (R275, R276). -/
theorem exec_setMask {i : Instr} {s : State} {v : Bool} (hexec : exec i s = .next (s.setFlag .I v)) :
    ∃ t, exec i s = .next t ∧ t.flag .I = v ∧ Kept s t [] [] [.I] [] ∧ Falls s t ∧
      t.acceptsIrq = (s.input.irq && !v) := by
  obtain ⟨hflag, hkept, hfalls⟩ := s.setFlag_spec .I v
  exact ⟨_, hexec, hflag, hkept, hfalls, s.setFlag_acceptsIrq v⟩

/-- A written CCR may change every flag and nothing else (R184). -/
theorem setCcr_kept (s : State) (c : Byte) :
    Kept s { s with ccr := c } [] [] [.S, .X, .H, .I, .N, .Z, .V, .C] [] where
  accs a _ := by cases a <;> rfl
  iregs r _ := by cases r <;> rfl
  flags f hf := absurd (by cases f <;> decide) hf
  bytes _ _ := rfl
  cfg := rfl

/-- Settles O28: CLI and SEI are the write of I, TAP that of CCR, and TPA that of A. -/
theorem maskAndTransfer : Obligations.MaskAndTransfer := by
  refine ⟨fun i v hrow s => ?_, fun s => ⟨?_, ?_⟩⟩
  · simp only [List.mem_cons, Prod.mk.injEq, List.not_mem_nil, or_false] at hrow
    obtain ⟨rfl, rfl⟩ | ⟨rfl, rfl⟩ := hrow
    · exact exec_setMask rfl
    · exact exec_setMask rfl
  · exact ⟨_, rfl, rfl, setCcr_kept s s.a, s.ccr_falls s.a⟩
  · exact ⟨_, rfl, rfl, s.setAcc_kept .A s.ccr, s.setAcc_falls .A s.ccr⟩

end Sys2Proof.Machine

/-! ## What the boundary does (O51, O52, O55) -/

namespace Sys2Proof.Machine

/-- An interrupt is accepted exactly where one is requested and I is clear (R302, R303). -/
theorem State.acceptsIrq_eq_true {s : State} : s.acceptsIrq = true ↔ s.input.irq = true ∧ s.flag .I = false := by
  rw [State.acceptsIrq, Bool.and_eq_true, Bool.not_eq_true']

/-- Reset comes first in every run state (R310, R341; D16, D24). -/
theorem step_reset {s : State} (hreset : s.input.reset = true) : step s = .next s.sampled.resetSequence :=
  step_boundary (State.boundaryEvent_reset hreset)

/-- A stopped machine does nothing (R317; D21). -/
theorem step_stopped {s : State} (hreset : s.input.reset = false) (hrun : s.run = .stopped) :
    step s = .next s.sampled :=
  step_boundary (State.boundaryEvent_stopped hreset hrun)

/-- A waiting machine takes the interrupt it waited for, without stacking (R316). -/
theorem step_waiting_irq {s : State} (hreset : s.input.reset = false) (hrun : s.run = .waiting)
    (hirq : s.acceptsIrq = true) : step s = .next (s.sampled.enterAt Config.hwiVectorLoc) :=
  step_boundary (by rw [State.boundaryEvent_waiting hreset hrun, if_pos hirq])

/-- A waiting machine with nothing to accept does nothing (R316; D21). -/
theorem step_waiting_idle {s : State} (hreset : s.input.reset = false) (hrun : s.run = .waiting)
    (hirq : s.acceptsIrq = false) : step s = .next s.sampled :=
  step_boundary (by rw [State.boundaryEvent_waiting hreset hrun, hirq]; rfl)

/-- A running machine takes the acknowledge phase with PC as return address (R302 to R305). -/
theorem step_running_irq {s : State} (hreset : s.input.reset = false) (hrun : s.run = .running)
    (hirq : s.acceptsIrq = true) : step s = .next (s.sampled.interruptEntry s.pc Config.hwiVectorLoc) :=
  step_boundary (State.boundaryEvent_irq hreset hrun hirq)

/-- Sampling the inputs leaves registers, flags and memory (R315). -/
theorem State.sampled_kept (s : State) {accs : List Acc} {iregs : List IReg} {flags : List Flag} {bytes : List Word} :
    Kept s s.sampled accs iregs flags bytes where
  accs a _ := by cases a <;> rfl
  iregs r _ := by cases r <;> rfl
  flags _ _ := rfl
  bytes _ _ := rfl
  cfg := rfl

/-- Everything entering a handler does (R304, R316). -/
theorem State.enterAt_spec (s : State) (vec : Word) :
    (s.enterAt vec).run = .running ∧ (s.enterAt vec).flag .I = true ∧
      (s.enterAt vec).pc = (s.enterAt vec).read16 vec ∧ (s.enterAt vec).sp = s.sp ∧
      Kept s (s.enterAt vec) [] [] [.I] [] ∧ SameModel s (s.enterAt vec) := by
  refine ⟨rfl, ?_, rfl, rfl, ?_, ⟨rfl, rfl, rfl, rfl⟩⟩
  · rw [State.enterAt_flag, if_pos rfl]
  · constructor <;> simp +contextual [State.enterAt_flag]

theorem stop_of_set {s : State} (h : s.flag .S = true) : stop s = s := if_pos h

/-- STOP with S clear halts the machine where it is (R280, R317). -/
theorem stop_of_clear {s : State} (h : s.flag .S = false) : stop s = { s with run := .stopped } :=
  if_neg (by simp [h])

/-- A written run state is all that changes. -/
theorem setRun_kept (s : State) (r : RunState) : Kept s { s with run := r } [] [] [] [] where
  accs a _ := by cases a <;> rfl
  iregs q _ := by cases q <;> rfl
  flags _ _ := rfl
  bytes _ _ := rfl
  cfg := rfl

/-- Settles O51: S decides what STOP does, and a stopped machine does nothing but reset. -/
theorem stopInstruction : Obligations.StopInstruction := by
  refine ⟨fun s hS => ?_, fun s hS => ?_, fun s hrun hreset => ?_, fun s _ hreset => ?_, State.reset_flag .S⟩
  · exact congrArg Host.Outcome.next (stop_of_set hS)
  · exact ⟨_, congrArg Host.Outcome.next (stop_of_clear hS), rfl, rfl, rfl, setRun_kept s .stopped,
      ⟨rfl, rfl, rfl, rfl⟩⟩
  · exact step_stopped hreset hrun
  · exact ⟨_, step_reset hreset, rfl⟩

/-- Settles O52: a request with I clear enters the handler, and anything else is an idle step. -/
theorem waitingMachine : Obligations.WaitingMachine := by
  intro s hrun hreset
  refine ⟨fun hirq hI => ?_, fun hidle => ?_⟩
  · obtain ⟨hrun', hflag, hpc, hsp, hkept, hmodel⟩ := s.sampled.enterAt_spec Config.hwiVectorLoc
    exact ⟨_, step_waiting_irq hreset hrun (State.acceptsIrq_eq_true.mpr ⟨hirq, hI⟩), hrun', hflag, hpc, hsp,
      s.sampled_kept.trans hkept, hmodel⟩
  · exact step_waiting_idle hreset hrun (State.acceptsIrq_eq_false.mpr hidle)

/-- Settles O55: the step is the reset sequence, which writes neither memory nor the model's own fields. -/
theorem resetStep : Obligations.ResetStep := fun _ hreset =>
  ⟨_, step_reset hreset, rfl, rfl, rfl, rfl, rfl, ⟨rfl, rfl, rfl, rfl⟩⟩

end Sys2Proof.Machine

/-! ## The acknowledge phase and the return from it (O48 to O50, O53, O54) -/

namespace Sys2Proof.Machine

/-- Settles O48: each of the four runs the acknowledge phase through its vector. -/
theorem softwareTraps : Obligations.SoftwareTraps := by
  intro i vec hrow s hinv
  have hexec : exec i s = .next (s.interruptEntry s.pc vec) := by
    simp only [List.mem_cons, Prod.mk.injEq, List.not_mem_nil, or_false] at hrow
    obtain ⟨rfl, rfl⟩ | ⟨rfl, rfl⟩ | ⟨rfl, rfl⟩ | ⟨rfl, rfl⟩ := hrow <;> rfl
  exact ⟨_, hexec, State.interruptEntry_spec hinv s.pc vec⟩

/-- Settles O50: RTI pulls every register from above S, and writes no memory. -/
theorem returnFromInterrupt : Obligations.ReturnFromInterrupt := fun s =>
  ⟨s.returnFromInterrupt, rfl, rfl, rfl, rfl, rfl, rfl, rfl, rfl, rfl, rfl, rfl, fun _ => rfl, rfl,
    ⟨⟨rfl, rfl, rfl, rfl⟩, rfl⟩⟩

/-- Settles O53: the step is the acknowledge phase on the state with its inputs sampled. -/
theorem hardwareInterrupt : Obligations.HardwareInterrupt := by
  intro s hinv hrun hreset hirq hI
  obtain ⟨hframe, hsp, hpc, hflag, hrun', hkept, hmodel⟩ :=
    State.interruptEntry_spec (s := s.sampled) hinv s.pc Config.hwiVectorLoc
  exact ⟨_, step_running_irq hreset hrun (State.acceptsIrq_eq_true.mpr ⟨hirq, hI⟩), hframe, hsp, hpc, hflag, hrun',
    s.sampled_kept.trans hkept, hmodel⟩

/-- RTI undoes an acknowledge phase whose frame lies in RAM, but for the bytes stacked (R311, R312; D7, entry 22). -/
theorem returnFromInterrupt_interruptEntry {s : State} (hinv : s.Inv)
    (hram : ∀ p ∈ frameAddrs s.sp, s.writable p = true) (vec : Word) :
    (s.interruptEntry s.pc vec).returnFromInterrupt =
      { s with mem := (s.interruptEntry s.pc vec).mem, run := .running } := by
  obtain ⟨hframe, hsp, -, -, -, hkept, -⟩ := State.interruptEntry_spec hinv s.pc vec
  exact returnFromInterrupt_frame hframe hkept.cfg hram hsp

/-- An instruction that traps, and RTI right after it (R311). -/
theorem exec_trap_rti {i : Instr} {s : State} {vec : Word} (hinv : s.Inv)
    (hram : ∀ p ∈ frameAddrs s.sp, s.writable p = true) (hexec : exec i s = .next (s.interruptEntry s.pc vec)) :
    ∃ t, exec i s = .next t ∧ exec .rti t = .next { s with mem := t.mem, run := .running } ∧
      ∀ p, p ∉ frameAddrs s.sp → t.mem.read p = s.mem.read p := by
  obtain ⟨-, -, -, -, -, hkept, -⟩ := State.interruptEntry_spec hinv s.pc vec
  exact ⟨_, hexec, congrArg Host.Outcome.next (returnFromInterrupt_interruptEntry hinv hram vec), hkept.bytes⟩

/-- A hardware interrupt, and RTI right after it (R311). -/
theorem step_irq_rti {s : State} (hinv : s.Inv) (hram : ∀ p ∈ frameAddrs s.sp, s.writable p = true)
    (hrun : s.run = .running) (hreset : s.input.reset = false) (hirq : s.acceptsIrq = true) :
    ∃ t, step s = .next t ∧
      exec .rti t = .next { s with mem := t.mem, inputs := s.inputs.tail, draws := s.draws + 1 } ∧
      ∀ p, p ∉ frameAddrs s.sp → t.mem.read p = s.mem.read p := by
  obtain ⟨-, -, -, -, -, hkept, -⟩ := State.interruptEntry_spec (s := s.sampled) hinv s.pc Config.hwiVectorLoc
  have hreturn := returnFromInterrupt_interruptEntry (s := s.sampled) hinv hram Config.hwiVectorLoc
  rw [← hrun] at hreturn
  exact ⟨_, step_running_irq hreset hrun hirq, congrArg Host.Outcome.next hreturn, hkept.bytes⟩

/-- WAI, the interrupt it waits for, and RTI right after: the frame is the one that WAI stacked (R312, R316; D26). -/
theorem exec_wai_irq_rti {s : State} (hinv : s.Inv) (hram : ∀ p ∈ frameAddrs s.sp, s.writable p = true)
    (hreset : s.input.reset = false) (hirq : s.acceptsIrq = true) :
    ∃ t u, exec .wai s = .next t ∧ step t = .next u ∧
      exec .rti u =
        .next { s with mem := u.mem, run := .running, inputs := s.inputs.tail, draws := s.draws + 1 } ∧
      ∀ p, p ∉ frameAddrs s.sp → u.mem.read p = s.mem.read p := by
  obtain ⟨hframe, hwaiting, hsp, -, hkept, -⟩ := waitForInterrupt_spec hinv
  have hstep := step_waiting_irq (s := waitForInterrupt s) hreset hwaiting hirq
  have hreturn := returnFromInterrupt_frame (t := (waitForInterrupt s).sampled.enterAt Config.hwiVectorLoc)
    hframe hkept.cfg hram hsp
  exact ⟨_, _, rfl, hstep, congrArg Host.Outcome.next hreturn, hkept.bytes⟩

/-- Settles O54: RTI finds the frame of the acknowledge phase, or of WAI, as it was stacked. -/
theorem interruptThenReturn : Obligations.InterruptThenReturn := by
  intro s hinv hram
  refine ⟨?_, fun hrun hreset hirq hI => ?_, fun hreset hirq hI => ?_⟩
  · simp only [List.forall_mem_cons]
    exact ⟨exec_trap_rti hinv hram rfl, exec_trap_rti hinv hram rfl, exec_trap_rti hinv hram rfl,
      exec_trap_rti hinv hram rfl, List.forall_mem_nil _⟩
  · exact step_irq_rti hinv hram hrun hreset (State.acceptsIrq_eq_true.mpr ⟨hirq, hI⟩)
  · exact exec_wai_irq_rti hinv hram hreset (State.acceptsIrq_eq_true.mpr ⟨hirq, hI⟩)

end Sys2Proof.Machine

namespace Sys2Proof

/-- Settles O49: WAI stacks the frame and waits. -/
theorem waitForInterrupt : Obligations.WaitForInterrupt := fun _ hinv =>
  ⟨_, rfl, Machine.waitForInterrupt_spec hinv⟩

end Sys2Proof
